-- ==== Sys2Proof/Word.lean ====
section
/-! DEFINITION. The two widths of the hardware (R9, R10): a register, flag byte or memory byte is 8
bits wide, an address or the program counter 16. -/

namespace Sys2Proof

/-- A byte: A, X, Y, SP, P and every memory byte (R9, R10). -/
abbrev Byte := BitVec 8

/-- An address: PC and every effective address (R9, R10). -/
abbrev Addr := BitVec 16

end Sys2Proof
end

