-- ==== Sys2Proof/Syntax.lean ====
section
/-! DEFINITION. The instructions of the core as data: one constructor of `Instr` for each of the
151 rows of spec/opcode_table.json (R81, R85, R86), and the addressing mode of each (R81).

A constructor carries the operand bytes of its row, assembled as R84 says: `i` an immediate byte,
`z` a zero-page address byte, `w` a 16-bit address (low byte fetched first), `r` the signed offset
byte of a branch, `p` the padding byte of BRK (R82). -/

namespace Sys2Proof

/-- The 13 addressing modes (R81). -/
inductive Mode where
  | imp   -- Implied
  | acc   -- Accumulator
  | imm   -- Immediate
  | zp    -- Zero Page
  | zpx   -- Zero Page,X
  | zpy   -- Zero Page,Y
  | abs   -- Absolute
  | absx  -- Absolute,X
  | absy  -- Absolute,Y
  | indx  -- Indexed Indirect (zp,X)
  | indy  -- Indirect Indexed (zp),Y
  | rel   -- Relative
  | ind   -- Absolute Indirect (JMP only)
  deriving DecidableEq, Repr

/-- Every instruction of spec/opcode_table.json, one constructor per row. -/
inductive Instr where
  -- Load and store (41_load_store.md)
  /-- `LDA (z,X)`, opcode 0xA1 (R118). -/
  | ldaIndx (z : Byte)
  /-- `LDA z`, opcode 0xA5 (R118). -/
  | ldaZp (z : Byte)
  /-- `LDA #i`, opcode 0xA9 (R118). -/
  | ldaImm (i : Byte)
  /-- `LDA w`, opcode 0xAD (R118). -/
  | ldaAbs (w : Addr)
  /-- `LDA (z),Y`, opcode 0xB1 (R118). -/
  | ldaIndy (z : Byte)
  /-- `LDA z,X`, opcode 0xB5 (R118). -/
  | ldaZpx (z : Byte)
  /-- `LDA w,Y`, opcode 0xB9 (R118). -/
  | ldaAbsy (w : Addr)
  /-- `LDA w,X`, opcode 0xBD (R118). -/
  | ldaAbsx (w : Addr)
  /-- `LDX #i`, opcode 0xA2 (R119). -/
  | ldxImm (i : Byte)
  /-- `LDX z`, opcode 0xA6 (R119). -/
  | ldxZp (z : Byte)
  /-- `LDX w`, opcode 0xAE (R119). -/
  | ldxAbs (w : Addr)
  /-- `LDX z,Y`, opcode 0xB6 (R119). -/
  | ldxZpy (z : Byte)
  /-- `LDX w,Y`, opcode 0xBE (R119). -/
  | ldxAbsy (w : Addr)
  /-- `LDY #i`, opcode 0xA0 (R120). -/
  | ldyImm (i : Byte)
  /-- `LDY z`, opcode 0xA4 (R120). -/
  | ldyZp (z : Byte)
  /-- `LDY w`, opcode 0xAC (R120). -/
  | ldyAbs (w : Addr)
  /-- `LDY z,X`, opcode 0xB4 (R120). -/
  | ldyZpx (z : Byte)
  /-- `LDY w,X`, opcode 0xBC (R120). -/
  | ldyAbsx (w : Addr)
  /-- `STA (z,X)`, opcode 0x81 (R121). -/
  | staIndx (z : Byte)
  /-- `STA z`, opcode 0x85 (R121). -/
  | staZp (z : Byte)
  /-- `STA w`, opcode 0x8D (R121). -/
  | staAbs (w : Addr)
  /-- `STA (z),Y`, opcode 0x91 (R121). -/
  | staIndy (z : Byte)
  /-- `STA z,X`, opcode 0x95 (R121). -/
  | staZpx (z : Byte)
  /-- `STA w,Y`, opcode 0x99 (R121). -/
  | staAbsy (w : Addr)
  /-- `STA w,X`, opcode 0x9D (R121). -/
  | staAbsx (w : Addr)
  /-- `STX z`, opcode 0x86 (R122). -/
  | stxZp (z : Byte)
  /-- `STX w`, opcode 0x8E (R122). -/
  | stxAbs (w : Addr)
  /-- `STX z,Y`, opcode 0x96 (R122). -/
  | stxZpy (z : Byte)
  /-- `STY z`, opcode 0x84 (R123). -/
  | styZp (z : Byte)
  /-- `STY w`, opcode 0x8C (R123). -/
  | styAbs (w : Addr)
  /-- `STY z,X`, opcode 0x94 (R123). -/
  | styZpx (z : Byte)
  -- Arithmetic and compare (42_arithmetic.md)
  /-- `ADC (z,X)`, opcode 0x61 (R128). -/
  | adcIndx (z : Byte)
  /-- `ADC z`, opcode 0x65 (R128). -/
  | adcZp (z : Byte)
  /-- `ADC #i`, opcode 0x69 (R128). -/
  | adcImm (i : Byte)
  /-- `ADC w`, opcode 0x6D (R128). -/
  | adcAbs (w : Addr)
  /-- `ADC (z),Y`, opcode 0x71 (R128). -/
  | adcIndy (z : Byte)
  /-- `ADC z,X`, opcode 0x75 (R128). -/
  | adcZpx (z : Byte)
  /-- `ADC w,Y`, opcode 0x79 (R128). -/
  | adcAbsy (w : Addr)
  /-- `ADC w,X`, opcode 0x7D (R128). -/
  | adcAbsx (w : Addr)
  /-- `SBC (z,X)`, opcode 0xE1 (R129). -/
  | sbcIndx (z : Byte)
  /-- `SBC z`, opcode 0xE5 (R129). -/
  | sbcZp (z : Byte)
  /-- `SBC #i`, opcode 0xE9 (R129). -/
  | sbcImm (i : Byte)
  /-- `SBC w`, opcode 0xED (R129). -/
  | sbcAbs (w : Addr)
  /-- `SBC (z),Y`, opcode 0xF1 (R129). -/
  | sbcIndy (z : Byte)
  /-- `SBC z,X`, opcode 0xF5 (R129). -/
  | sbcZpx (z : Byte)
  /-- `SBC w,Y`, opcode 0xF9 (R129). -/
  | sbcAbsy (w : Addr)
  /-- `SBC w,X`, opcode 0xFD (R129). -/
  | sbcAbsx (w : Addr)
  /-- `CMP (z,X)`, opcode 0xC1 (R130). -/
  | cmpIndx (z : Byte)
  /-- `CMP z`, opcode 0xC5 (R130). -/
  | cmpZp (z : Byte)
  /-- `CMP #i`, opcode 0xC9 (R130). -/
  | cmpImm (i : Byte)
  /-- `CMP w`, opcode 0xCD (R130). -/
  | cmpAbs (w : Addr)
  /-- `CMP (z),Y`, opcode 0xD1 (R130). -/
  | cmpIndy (z : Byte)
  /-- `CMP z,X`, opcode 0xD5 (R130). -/
  | cmpZpx (z : Byte)
  /-- `CMP w,Y`, opcode 0xD9 (R130). -/
  | cmpAbsy (w : Addr)
  /-- `CMP w,X`, opcode 0xDD (R130). -/
  | cmpAbsx (w : Addr)
  /-- `CPX #i`, opcode 0xE0 (R131). -/
  | cpxImm (i : Byte)
  /-- `CPX z`, opcode 0xE4 (R131). -/
  | cpxZp (z : Byte)
  /-- `CPX w`, opcode 0xEC (R131). -/
  | cpxAbs (w : Addr)
  /-- `CPY #i`, opcode 0xC0 (R132). -/
  | cpyImm (i : Byte)
  /-- `CPY z`, opcode 0xC4 (R132). -/
  | cpyZp (z : Byte)
  /-- `CPY w`, opcode 0xCC (R132). -/
  | cpyAbs (w : Addr)
  -- Logic and bit test (43_logic.md)
  /-- `AND (z,X)`, opcode 0x21 (R133). -/
  | andIndx (z : Byte)
  /-- `AND z`, opcode 0x25 (R133). -/
  | andZp (z : Byte)
  /-- `AND #i`, opcode 0x29 (R133). -/
  | andImm (i : Byte)
  /-- `AND w`, opcode 0x2D (R133). -/
  | andAbs (w : Addr)
  /-- `AND (z),Y`, opcode 0x31 (R133). -/
  | andIndy (z : Byte)
  /-- `AND z,X`, opcode 0x35 (R133). -/
  | andZpx (z : Byte)
  /-- `AND w,Y`, opcode 0x39 (R133). -/
  | andAbsy (w : Addr)
  /-- `AND w,X`, opcode 0x3D (R133). -/
  | andAbsx (w : Addr)
  /-- `ORA (z,X)`, opcode 0x01 (R134). -/
  | oraIndx (z : Byte)
  /-- `ORA z`, opcode 0x05 (R134). -/
  | oraZp (z : Byte)
  /-- `ORA #i`, opcode 0x09 (R134). -/
  | oraImm (i : Byte)
  /-- `ORA w`, opcode 0x0D (R134). -/
  | oraAbs (w : Addr)
  /-- `ORA (z),Y`, opcode 0x11 (R134). -/
  | oraIndy (z : Byte)
  /-- `ORA z,X`, opcode 0x15 (R134). -/
  | oraZpx (z : Byte)
  /-- `ORA w,Y`, opcode 0x19 (R134). -/
  | oraAbsy (w : Addr)
  /-- `ORA w,X`, opcode 0x1D (R134). -/
  | oraAbsx (w : Addr)
  /-- `EOR (z,X)`, opcode 0x41 (R135). -/
  | eorIndx (z : Byte)
  /-- `EOR z`, opcode 0x45 (R135). -/
  | eorZp (z : Byte)
  /-- `EOR #i`, opcode 0x49 (R135). -/
  | eorImm (i : Byte)
  /-- `EOR w`, opcode 0x4D (R135). -/
  | eorAbs (w : Addr)
  /-- `EOR (z),Y`, opcode 0x51 (R135). -/
  | eorIndy (z : Byte)
  /-- `EOR z,X`, opcode 0x55 (R135). -/
  | eorZpx (z : Byte)
  /-- `EOR w,Y`, opcode 0x59 (R135). -/
  | eorAbsy (w : Addr)
  /-- `EOR w,X`, opcode 0x5D (R135). -/
  | eorAbsx (w : Addr)
  /-- `BIT z`, opcode 0x24 (R136). -/
  | bitZp (z : Byte)
  /-- `BIT w`, opcode 0x2C (R136). -/
  | bitAbs (w : Addr)
  -- Shift and rotate (44_shift_rotate.md)
  /-- `ASL z`, opcode 0x06 (R138). -/
  | aslZp (z : Byte)
  /-- `ASL A`, opcode 0x0A (R138). -/
  | aslAcc
  /-- `ASL w`, opcode 0x0E (R138). -/
  | aslAbs (w : Addr)
  /-- `ASL z,X`, opcode 0x16 (R138). -/
  | aslZpx (z : Byte)
  /-- `ASL w,X`, opcode 0x1E (R138). -/
  | aslAbsx (w : Addr)
  /-- `LSR z`, opcode 0x46 (R139). -/
  | lsrZp (z : Byte)
  /-- `LSR A`, opcode 0x4A (R139). -/
  | lsrAcc
  /-- `LSR w`, opcode 0x4E (R139). -/
  | lsrAbs (w : Addr)
  /-- `LSR z,X`, opcode 0x56 (R139). -/
  | lsrZpx (z : Byte)
  /-- `LSR w,X`, opcode 0x5E (R139). -/
  | lsrAbsx (w : Addr)
  /-- `ROL z`, opcode 0x26 (R140). -/
  | rolZp (z : Byte)
  /-- `ROL A`, opcode 0x2A (R140). -/
  | rolAcc
  /-- `ROL w`, opcode 0x2E (R140). -/
  | rolAbs (w : Addr)
  /-- `ROL z,X`, opcode 0x36 (R140). -/
  | rolZpx (z : Byte)
  /-- `ROL w,X`, opcode 0x3E (R140). -/
  | rolAbsx (w : Addr)
  /-- `ROR z`, opcode 0x66 (R141). -/
  | rorZp (z : Byte)
  /-- `ROR A`, opcode 0x6A (R141). -/
  | rorAcc
  /-- `ROR w`, opcode 0x6E (R141). -/
  | rorAbs (w : Addr)
  /-- `ROR z,X`, opcode 0x76 (R141). -/
  | rorZpx (z : Byte)
  /-- `ROR w,X`, opcode 0x7E (R141). -/
  | rorAbsx (w : Addr)
  -- Increment and decrement (45_inc_dec.md)
  /-- `INC z`, opcode 0xE6 (R142). -/
  | incZp (z : Byte)
  /-- `INC w`, opcode 0xEE (R142). -/
  | incAbs (w : Addr)
  /-- `INC z,X`, opcode 0xF6 (R142). -/
  | incZpx (z : Byte)
  /-- `INC w,X`, opcode 0xFE (R142). -/
  | incAbsx (w : Addr)
  /-- `DEC z`, opcode 0xC6 (R143). -/
  | decZp (z : Byte)
  /-- `DEC w`, opcode 0xCE (R143). -/
  | decAbs (w : Addr)
  /-- `DEC z,X`, opcode 0xD6 (R143). -/
  | decZpx (z : Byte)
  /-- `DEC w,X`, opcode 0xDE (R143). -/
  | decAbsx (w : Addr)
  /-- `INX`, opcode 0xE8 (R144). -/
  | inx
  /-- `INY`, opcode 0xC8 (R145). -/
  | iny
  /-- `DEX`, opcode 0xCA (R146). -/
  | dex
  /-- `DEY`, opcode 0x88 (R147). -/
  | dey
  -- Transfers and flag instructions (46_transfer_flag.md)
  /-- `TAX`, opcode 0xAA (R148). -/
  | tax
  /-- `TAY`, opcode 0xA8 (R149). -/
  | tay
  /-- `TXA`, opcode 0x8A (R150). -/
  | txa
  /-- `TYA`, opcode 0x98 (R151). -/
  | tya
  /-- `TSX`, opcode 0xBA (R152). -/
  | tsx
  /-- `TXS`, opcode 0x9A (R153). -/
  | txs
  /-- `CLC`, opcode 0x18 (R154). -/
  | clc
  /-- `SEC`, opcode 0x38 (R155). -/
  | sec
  /-- `CLI`, opcode 0x58 (R156). -/
  | cli
  /-- `SEI`, opcode 0x78 (R157). -/
  | sei
  /-- `CLV`, opcode 0xB8 (R158). -/
  | clv
  /-- `CLD`, opcode 0xD8 (R159). -/
  | cld
  /-- `SED`, opcode 0xF8 (R160). -/
  | sed
  -- Branches, jumps and subroutines (47_branch_jump.md)
  /-- `BCC r`, opcode 0x90 (R162). -/
  | bcc (r : Byte)
  /-- `BCS r`, opcode 0xB0 (R163). -/
  | bcs (r : Byte)
  /-- `BEQ r`, opcode 0xF0 (R164). -/
  | beq (r : Byte)
  /-- `BNE r`, opcode 0xD0 (R165). -/
  | bne (r : Byte)
  /-- `BMI r`, opcode 0x30 (R166). -/
  | bmi (r : Byte)
  /-- `BPL r`, opcode 0x10 (R167). -/
  | bpl (r : Byte)
  /-- `BVC r`, opcode 0x50 (R168). -/
  | bvc (r : Byte)
  /-- `BVS r`, opcode 0x70 (R169). -/
  | bvs (r : Byte)
  /-- `JMP w`, opcode 0x4C (R170). -/
  | jmpAbs (w : Addr)
  /-- `JMP (w)`, opcode 0x6C (R170). -/
  | jmpInd (w : Addr)
  /-- `JSR w`, opcode 0x20 (R171). -/
  | jsr (w : Addr)
  /-- `RTS`, opcode 0x60 (R172). -/
  | rts
  -- Stack instructions (48_stack.md)
  /-- `PHA`, opcode 0x48 (R173). -/
  | pha
  /-- `PLA`, opcode 0x68 (R174). -/
  | pla
  /-- `PHP`, opcode 0x08 (R175). -/
  | php
  /-- `PLP`, opcode 0x28 (R176). -/
  | plp
  -- BRK, RTI and NOP (49_system.md)
  /-- `BRK with padding byte p`, opcode 0x00 (R177). -/
  | brk (p : Byte)
  /-- `RTI`, opcode 0x40 (R178). -/
  | rti
  /-- `NOP`, opcode 0xEA (R179). -/
  | nop
  deriving DecidableEq, Repr

/-- The addressing mode of each instruction (opcode_table.json, field `mode`; R81). -/
def Instr.mode : Instr → Mode
  | .ldaIndx _ => .indx | .ldaZp _ => .zp | .ldaImm _ => .imm | .ldaAbs _ => .abs
  | .ldaIndy _ => .indy | .ldaZpx _ => .zpx | .ldaAbsy _ => .absy | .ldaAbsx _ => .absx
  | .ldxImm _ => .imm | .ldxZp _ => .zp | .ldxAbs _ => .abs | .ldxZpy _ => .zpy
  | .ldxAbsy _ => .absy
  | .ldyImm _ => .imm | .ldyZp _ => .zp | .ldyAbs _ => .abs | .ldyZpx _ => .zpx
  | .ldyAbsx _ => .absx
  | .staIndx _ => .indx | .staZp _ => .zp | .staAbs _ => .abs | .staIndy _ => .indy
  | .staZpx _ => .zpx | .staAbsy _ => .absy | .staAbsx _ => .absx
  | .stxZp _ => .zp | .stxAbs _ => .abs | .stxZpy _ => .zpy
  | .styZp _ => .zp | .styAbs _ => .abs | .styZpx _ => .zpx
  | .adcIndx _ => .indx | .adcZp _ => .zp | .adcImm _ => .imm | .adcAbs _ => .abs
  | .adcIndy _ => .indy | .adcZpx _ => .zpx | .adcAbsy _ => .absy | .adcAbsx _ => .absx
  | .sbcIndx _ => .indx | .sbcZp _ => .zp | .sbcImm _ => .imm | .sbcAbs _ => .abs
  | .sbcIndy _ => .indy | .sbcZpx _ => .zpx | .sbcAbsy _ => .absy | .sbcAbsx _ => .absx
  | .cmpIndx _ => .indx | .cmpZp _ => .zp | .cmpImm _ => .imm | .cmpAbs _ => .abs
  | .cmpIndy _ => .indy | .cmpZpx _ => .zpx | .cmpAbsy _ => .absy | .cmpAbsx _ => .absx
  | .cpxImm _ => .imm | .cpxZp _ => .zp | .cpxAbs _ => .abs
  | .cpyImm _ => .imm | .cpyZp _ => .zp | .cpyAbs _ => .abs
  | .andIndx _ => .indx | .andZp _ => .zp | .andImm _ => .imm | .andAbs _ => .abs
  | .andIndy _ => .indy | .andZpx _ => .zpx | .andAbsy _ => .absy | .andAbsx _ => .absx
  | .oraIndx _ => .indx | .oraZp _ => .zp | .oraImm _ => .imm | .oraAbs _ => .abs
  | .oraIndy _ => .indy | .oraZpx _ => .zpx | .oraAbsy _ => .absy | .oraAbsx _ => .absx
  | .eorIndx _ => .indx | .eorZp _ => .zp | .eorImm _ => .imm | .eorAbs _ => .abs
  | .eorIndy _ => .indy | .eorZpx _ => .zpx | .eorAbsy _ => .absy | .eorAbsx _ => .absx
  | .bitZp _ => .zp | .bitAbs _ => .abs
  | .aslZp _ => .zp | .aslAcc => .acc | .aslAbs _ => .abs | .aslZpx _ => .zpx | .aslAbsx _ => .absx
  | .lsrZp _ => .zp | .lsrAcc => .acc | .lsrAbs _ => .abs | .lsrZpx _ => .zpx | .lsrAbsx _ => .absx
  | .rolZp _ => .zp | .rolAcc => .acc | .rolAbs _ => .abs | .rolZpx _ => .zpx | .rolAbsx _ => .absx
  | .rorZp _ => .zp | .rorAcc => .acc | .rorAbs _ => .abs | .rorZpx _ => .zpx | .rorAbsx _ => .absx
  | .incZp _ => .zp | .incAbs _ => .abs | .incZpx _ => .zpx | .incAbsx _ => .absx
  | .decZp _ => .zp | .decAbs _ => .abs | .decZpx _ => .zpx | .decAbsx _ => .absx
  | .inx => .imp
  | .iny => .imp
  | .dex => .imp
  | .dey => .imp
  | .tax => .imp
  | .tay => .imp
  | .txa => .imp
  | .tya => .imp
  | .tsx => .imp
  | .txs => .imp
  | .clc => .imp
  | .sec => .imp
  | .cli => .imp
  | .sei => .imp
  | .clv => .imp
  | .cld => .imp
  | .sed => .imp
  | .bcc _ => .rel
  | .bcs _ => .rel
  | .beq _ => .rel
  | .bne _ => .rel
  | .bmi _ => .rel
  | .bpl _ => .rel
  | .bvc _ => .rel
  | .bvs _ => .rel
  | .jmpAbs _ => .abs | .jmpInd _ => .ind
  | .jsr _ => .abs
  | .rts => .imp
  | .pha => .imp
  | .pla => .imp
  | .php => .imp
  | .plp => .imp
  | .brk _ => .imp
  | .rti => .imp
  | .nop => .imp

end Sys2Proof
end

