-- ==== Sys2Proof/Config.lean ====
section
/-! DEFINITION. What is fixed for this machine: the parameters of R9, and the two parameters the spec
leaves OPEN as opaque constants (no body: no proof can see a value of them). -/

namespace Sys2Proof.Config

/-- IO_KBD, the keyboard input register (R9, R70). -/
def ioKbd : Addr := 0xF000#16

/-- IO_TTY, the character-out register (R9, R70). -/
def ioTty : Addr := 0xF001#16

/-- The NMI vector (R9, R70). -/
def nmiVector : Addr := 0xFFFA#16

/-- The RESET vector (R9, R70). -/
def resetVector : Addr := 0xFFFC#16

/-- The IRQ/BRK vector (R9, R70). -/
def irqVector : Addr := 0xFFFE#16

/-- The first address of the stack page (R9, R19). -/
def stackPage : Addr := 0x0100#16

/-- SP after reset (R9, R21). -/
def resetSp : Byte := 0xFD#8

/-- P after reset: only I set (R9, R41). -/
def resetP : Byte := 0x04#8

/-- What a byte of memory reads as while nothing is listed for it: RAM is zeroed at power-on (R54). -/
def blankByte : Byte := 0x00#8

/-- The number of addresses (R9, R51). -/
def memorySize : Nat := 65536

/-- OPEN (R59, D11): whether a write at IO_KBD updates the RAM byte there. UNVERIFIED, safe: a claim
must hold for both values (notes/assumptions/4.md). -/
opaque kbdWriteStores : Bool

/-- OPEN (R42, R95, D10): what a step adds to the cycle counter. The spec calls it a draw per step; the
first argument numbers the draw, the others are R95's: opcode, mode, page-cross, branch taken,
interrupt serviced. UNVERIFIED, safe: a claim must hold for every cost (notes/assumptions/3.md). -/
opaque cycleCost : Nat → Byte → Mode → Bool → Bool → Bool → Nat

end Sys2Proof.Config
end

