-- ==== Sys2Proof/Decode.lean ====
section
/-! DEFINITION. The opcode decoder (R85, R86), total on any bytes and rejecting by name; after it the
encoder, written from the encoding patterns of R81 and opcode_table.json. -/

namespace Sys2Proof

/-- The low byte of a 16-bit value (R65). -/
def loByte (w : Addr) : Byte := w.setWidth 8

/-- The high byte of a 16-bit value (R65). -/
def hiByte (w : Addr) : Byte := w.extractLsb' 8 8

/-- `hi:lo` (R11): the 16-bit value of a little-endian byte pair (R65). -/
def joinBytes (lo hi : Byte) : Addr := hi ++ lo

/-! ### The opcode map

`b` is operand byte 1 and `w` the word of operand bytes 2 and 1 (R84); a row uses the one its mode has. -/

/-- Row 0x of the opcode map (R86). -/
def opcodeRow0 (b : Byte) (w : Addr) : List (Byte × Instr) :=
  [(0x00#8, .brk b), (0x01#8, .oraIndx b), (0x05#8, .oraZp b), (0x06#8, .aslZp b), (0x08#8, .php),
   (0x09#8, .oraImm b), (0x0A#8, .aslAcc), (0x0D#8, .oraAbs w), (0x0E#8, .aslAbs w)]

/-- Row 1x of the opcode map (R86). -/
def opcodeRow1 (b : Byte) (w : Addr) : List (Byte × Instr) :=
  [(0x10#8, .bpl b), (0x11#8, .oraIndy b), (0x15#8, .oraZpx b), (0x16#8, .aslZpx b), (0x18#8, .clc),
   (0x19#8, .oraAbsy w), (0x1D#8, .oraAbsx w), (0x1E#8, .aslAbsx w)]

/-- Row 2x of the opcode map (R86). -/
def opcodeRow2 (b : Byte) (w : Addr) : List (Byte × Instr) :=
  [(0x20#8, .jsr w), (0x21#8, .andIndx b), (0x24#8, .bitZp b), (0x25#8, .andZp b), (0x26#8, .rolZp b),
   (0x28#8, .plp), (0x29#8, .andImm b), (0x2A#8, .rolAcc), (0x2C#8, .bitAbs w), (0x2D#8, .andAbs w),
   (0x2E#8, .rolAbs w)]

/-- Row 3x of the opcode map (R86). -/
def opcodeRow3 (b : Byte) (w : Addr) : List (Byte × Instr) :=
  [(0x30#8, .bmi b), (0x31#8, .andIndy b), (0x35#8, .andZpx b), (0x36#8, .rolZpx b), (0x38#8, .sec),
   (0x39#8, .andAbsy w), (0x3D#8, .andAbsx w), (0x3E#8, .rolAbsx w)]

/-- Row 4x of the opcode map (R86). -/
def opcodeRow4 (b : Byte) (w : Addr) : List (Byte × Instr) :=
  [(0x40#8, .rti), (0x41#8, .eorIndx b), (0x45#8, .eorZp b), (0x46#8, .lsrZp b), (0x48#8, .pha),
   (0x49#8, .eorImm b), (0x4A#8, .lsrAcc), (0x4C#8, .jmpAbs w), (0x4D#8, .eorAbs w), (0x4E#8, .lsrAbs w)]

/-- Row 5x of the opcode map (R86). -/
def opcodeRow5 (b : Byte) (w : Addr) : List (Byte × Instr) :=
  [(0x50#8, .bvc b), (0x51#8, .eorIndy b), (0x55#8, .eorZpx b), (0x56#8, .lsrZpx b), (0x58#8, .cli),
   (0x59#8, .eorAbsy w), (0x5D#8, .eorAbsx w), (0x5E#8, .lsrAbsx w)]

/-- Row 6x of the opcode map (R86). -/
def opcodeRow6 (b : Byte) (w : Addr) : List (Byte × Instr) :=
  [(0x60#8, .rts), (0x61#8, .adcIndx b), (0x65#8, .adcZp b), (0x66#8, .rorZp b), (0x68#8, .pla),
   (0x69#8, .adcImm b), (0x6A#8, .rorAcc), (0x6C#8, .jmpInd w), (0x6D#8, .adcAbs w), (0x6E#8, .rorAbs w)]

/-- Row 7x of the opcode map (R86). -/
def opcodeRow7 (b : Byte) (w : Addr) : List (Byte × Instr) :=
  [(0x70#8, .bvs b), (0x71#8, .adcIndy b), (0x75#8, .adcZpx b), (0x76#8, .rorZpx b), (0x78#8, .sei),
   (0x79#8, .adcAbsy w), (0x7D#8, .adcAbsx w), (0x7E#8, .rorAbsx w)]

/-- Row 8x of the opcode map (R86). -/
def opcodeRow8 (b : Byte) (w : Addr) : List (Byte × Instr) :=
  [(0x81#8, .staIndx b), (0x84#8, .styZp b), (0x85#8, .staZp b), (0x86#8, .stxZp b), (0x88#8, .dey),
   (0x8A#8, .txa), (0x8C#8, .styAbs w), (0x8D#8, .staAbs w), (0x8E#8, .stxAbs w)]

/-- Row 9x of the opcode map (R86). -/
def opcodeRow9 (b : Byte) (w : Addr) : List (Byte × Instr) :=
  [(0x90#8, .bcc b), (0x91#8, .staIndy b), (0x94#8, .styZpx b), (0x95#8, .staZpx b), (0x96#8, .stxZpy b),
   (0x98#8, .tya), (0x99#8, .staAbsy w), (0x9A#8, .txs), (0x9D#8, .staAbsx w)]

/-- Row Ax of the opcode map (R86). -/
def opcodeRowA (b : Byte) (w : Addr) : List (Byte × Instr) :=
  [(0xA0#8, .ldyImm b), (0xA1#8, .ldaIndx b), (0xA2#8, .ldxImm b), (0xA4#8, .ldyZp b), (0xA5#8, .ldaZp b),
   (0xA6#8, .ldxZp b), (0xA8#8, .tay), (0xA9#8, .ldaImm b), (0xAA#8, .tax), (0xAC#8, .ldyAbs w),
   (0xAD#8, .ldaAbs w), (0xAE#8, .ldxAbs w)]

/-- Row Bx of the opcode map (R86). -/
def opcodeRowB (b : Byte) (w : Addr) : List (Byte × Instr) :=
  [(0xB0#8, .bcs b), (0xB1#8, .ldaIndy b), (0xB4#8, .ldyZpx b), (0xB5#8, .ldaZpx b), (0xB6#8, .ldxZpy b),
   (0xB8#8, .clv), (0xB9#8, .ldaAbsy w), (0xBA#8, .tsx), (0xBC#8, .ldyAbsx w), (0xBD#8, .ldaAbsx w),
   (0xBE#8, .ldxAbsy w)]

/-- Row Cx of the opcode map (R86). -/
def opcodeRowC (b : Byte) (w : Addr) : List (Byte × Instr) :=
  [(0xC0#8, .cpyImm b), (0xC1#8, .cmpIndx b), (0xC4#8, .cpyZp b), (0xC5#8, .cmpZp b), (0xC6#8, .decZp b),
   (0xC8#8, .iny), (0xC9#8, .cmpImm b), (0xCA#8, .dex), (0xCC#8, .cpyAbs w), (0xCD#8, .cmpAbs w),
   (0xCE#8, .decAbs w)]

/-- Row Dx of the opcode map (R86). -/
def opcodeRowD (b : Byte) (w : Addr) : List (Byte × Instr) :=
  [(0xD0#8, .bne b), (0xD1#8, .cmpIndy b), (0xD5#8, .cmpZpx b), (0xD6#8, .decZpx b), (0xD8#8, .cld),
   (0xD9#8, .cmpAbsy w), (0xDD#8, .cmpAbsx w), (0xDE#8, .decAbsx w)]

/-- Row Ex of the opcode map (R86). -/
def opcodeRowE (b : Byte) (w : Addr) : List (Byte × Instr) :=
  [(0xE0#8, .cpxImm b), (0xE1#8, .sbcIndx b), (0xE4#8, .cpxZp b), (0xE5#8, .sbcZp b), (0xE6#8, .incZp b),
   (0xE8#8, .inx), (0xE9#8, .sbcImm b), (0xEA#8, .nop), (0xEC#8, .cpxAbs w), (0xED#8, .sbcAbs w),
   (0xEE#8, .incAbs w)]

/-- Row Fx of the opcode map (R86). -/
def opcodeRowF (b : Byte) (w : Addr) : List (Byte × Instr) :=
  [(0xF0#8, .beq b), (0xF1#8, .sbcIndy b), (0xF5#8, .sbcZpx b), (0xF6#8, .incZpx b), (0xF8#8, .sed),
   (0xF9#8, .sbcAbsy w), (0xFD#8, .sbcAbsx w), (0xFE#8, .incAbsx w)]

/-- The whole opcode map (R86): the 151 implemented opcodes. -/
def opcodeMap (b : Byte) (w : Addr) : List (Byte × Instr) :=
  opcodeRow0 b w ++ opcodeRow1 b w ++ opcodeRow2 b w ++ opcodeRow3 b w ++
  opcodeRow4 b w ++ opcodeRow5 b w ++ opcodeRow6 b w ++ opcodeRow7 b w ++
  opcodeRow8 b w ++ opcodeRow9 b w ++ opcodeRowA b w ++ opcodeRowB b w ++
  opcodeRowC b w ++ opcodeRowD b w ++ opcodeRowE b w ++ opcodeRowF b w

/-- The instruction of an opcode byte and its operand bytes 1 and 2; `none` is R85's NotImplemented. An
operand byte the opcode does not take is not looked at. -/
def decodeOp (op b1 b2 : Byte) : Option Instr :=
  (opcodeMap b1 (joinBytes b1 b2)).lookup op

/-- How many operand bytes a mode takes (R81). -/
def modeOperandBytes : Mode → Nat
  | .imp | .acc => 0
  | .imm | .zp | .zpx | .zpy | .indx | .indy | .rel => 1
  | .abs | .absx | .absy | .ind => 2

/-- How many bytes follow the opcode of an instruction: those of its mode, and one padding byte after BRK
(R82, R83). -/
def operandBytes (i : Instr) : Nat :=
  match i with
  | .brk _ => 1
  | i => modeOperandBytes i.mode

/-- The operand byte count of an opcode byte alone (R83); `none` where it is NotImplemented (R89). -/
def opcodeOperandBytes (op : Byte) : Option Nat :=
  (decodeOp op 0#8 0#8).map operandBytes

/-- Why bytes are no instruction. -/
inductive DecodeError where
  /-- There is no opcode byte. -/
  | noBytes
  /-- The opcode byte is one of R89's. -/
  | opcodeNotImplemented (op : Byte)
  /-- Fewer bytes follow the opcode than it takes. -/
  | operandMissing (op : Byte)
  deriving DecidableEq, Repr

/-- Decoding: the first instruction of a byte string and the bytes after it (R81, R85). -/
def decode : List Byte → Except DecodeError (Instr × List Byte)
  | [] => .error .noBytes
  | op :: rest =>
    match opcodeOperandBytes op with
    | none => .error (.opcodeNotImplemented op)
    | some n =>
      if rest.length < n then .error (.operandMissing op)
      else
        match decodeOp op (rest.getD 0 0#8) (rest.getD 1 0#8) with
        | none => .error (.opcodeNotImplemented op)
        | some i => .ok (i, rest.drop n)

/-- The bytes of the number `w` cut to `nbits` bits, least significant first: three bytes, the longest
instruction there is (R83). -/
def tableBytes (nbits w : Nat) : List Byte :=
  let v := w % 2 ^ nbits
  [BitVec.ofNat 8 v, BitVec.ofNat 8 (v / 256), BitVec.ofNat 8 (v / 65536)]

/-- What the decoder reads from an instruction whose bits are `w`, numbered as opcode_table.json numbers
them: bits 7..0 the opcode byte, 15..8 operand byte 1, 23..16 operand byte 2. -/
def decodeTableWord (nbits w : Nat) : Option Instr :=
  match decode (tableBytes nbits w) with
  | .ok (i, _) => some i
  | .error _ => none

/-- The bytes of an instruction in address order (R81, R82, R91). -/
def encode : Instr → List Byte
  | .ldaIndx z => [0xA1#8, z] | .ldaZp z => [0xA5#8, z] | .ldaImm i => [0xA9#8, i]
  | .ldaAbs w => [0xAD#8, loByte w, hiByte w] | .ldaIndy z => [0xB1#8, z] | .ldaZpx z => [0xB5#8, z]
  | .ldaAbsy w => [0xB9#8, loByte w, hiByte w] | .ldaAbsx w => [0xBD#8, loByte w, hiByte w]
  | .ldxImm i => [0xA2#8, i] | .ldxZp z => [0xA6#8, z] | .ldxAbs w => [0xAE#8, loByte w, hiByte w]
  | .ldxZpy z => [0xB6#8, z] | .ldxAbsy w => [0xBE#8, loByte w, hiByte w]
  | .ldyImm i => [0xA0#8, i] | .ldyZp z => [0xA4#8, z] | .ldyAbs w => [0xAC#8, loByte w, hiByte w]
  | .ldyZpx z => [0xB4#8, z] | .ldyAbsx w => [0xBC#8, loByte w, hiByte w]
  | .staIndx z => [0x81#8, z] | .staZp z => [0x85#8, z] | .staAbs w => [0x8D#8, loByte w, hiByte w]
  | .staIndy z => [0x91#8, z] | .staZpx z => [0x95#8, z] | .staAbsy w => [0x99#8, loByte w, hiByte w]
  | .staAbsx w => [0x9D#8, loByte w, hiByte w]
  | .stxZp z => [0x86#8, z] | .stxAbs w => [0x8E#8, loByte w, hiByte w] | .stxZpy z => [0x96#8, z]
  | .styZp z => [0x84#8, z] | .styAbs w => [0x8C#8, loByte w, hiByte w] | .styZpx z => [0x94#8, z]
  | .adcIndx z => [0x61#8, z] | .adcZp z => [0x65#8, z] | .adcImm i => [0x69#8, i]
  | .adcAbs w => [0x6D#8, loByte w, hiByte w] | .adcIndy z => [0x71#8, z] | .adcZpx z => [0x75#8, z]
  | .adcAbsy w => [0x79#8, loByte w, hiByte w] | .adcAbsx w => [0x7D#8, loByte w, hiByte w]
  | .sbcIndx z => [0xE1#8, z] | .sbcZp z => [0xE5#8, z] | .sbcImm i => [0xE9#8, i]
  | .sbcAbs w => [0xED#8, loByte w, hiByte w] | .sbcIndy z => [0xF1#8, z] | .sbcZpx z => [0xF5#8, z]
  | .sbcAbsy w => [0xF9#8, loByte w, hiByte w] | .sbcAbsx w => [0xFD#8, loByte w, hiByte w]
  | .cmpIndx z => [0xC1#8, z] | .cmpZp z => [0xC5#8, z] | .cmpImm i => [0xC9#8, i]
  | .cmpAbs w => [0xCD#8, loByte w, hiByte w] | .cmpIndy z => [0xD1#8, z] | .cmpZpx z => [0xD5#8, z]
  | .cmpAbsy w => [0xD9#8, loByte w, hiByte w] | .cmpAbsx w => [0xDD#8, loByte w, hiByte w]
  | .cpxImm i => [0xE0#8, i] | .cpxZp z => [0xE4#8, z] | .cpxAbs w => [0xEC#8, loByte w, hiByte w]
  | .cpyImm i => [0xC0#8, i] | .cpyZp z => [0xC4#8, z] | .cpyAbs w => [0xCC#8, loByte w, hiByte w]
  | .andIndx z => [0x21#8, z] | .andZp z => [0x25#8, z] | .andImm i => [0x29#8, i]
  | .andAbs w => [0x2D#8, loByte w, hiByte w] | .andIndy z => [0x31#8, z] | .andZpx z => [0x35#8, z]
  | .andAbsy w => [0x39#8, loByte w, hiByte w] | .andAbsx w => [0x3D#8, loByte w, hiByte w]
  | .oraIndx z => [0x01#8, z] | .oraZp z => [0x05#8, z] | .oraImm i => [0x09#8, i]
  | .oraAbs w => [0x0D#8, loByte w, hiByte w] | .oraIndy z => [0x11#8, z] | .oraZpx z => [0x15#8, z]
  | .oraAbsy w => [0x19#8, loByte w, hiByte w] | .oraAbsx w => [0x1D#8, loByte w, hiByte w]
  | .eorIndx z => [0x41#8, z] | .eorZp z => [0x45#8, z] | .eorImm i => [0x49#8, i]
  | .eorAbs w => [0x4D#8, loByte w, hiByte w] | .eorIndy z => [0x51#8, z] | .eorZpx z => [0x55#8, z]
  | .eorAbsy w => [0x59#8, loByte w, hiByte w] | .eorAbsx w => [0x5D#8, loByte w, hiByte w]
  | .bitZp z => [0x24#8, z] | .bitAbs w => [0x2C#8, loByte w, hiByte w]
  | .aslZp z => [0x06#8, z] | .aslAcc => [0x0A#8] | .aslAbs w => [0x0E#8, loByte w, hiByte w]
  | .aslZpx z => [0x16#8, z] | .aslAbsx w => [0x1E#8, loByte w, hiByte w]
  | .lsrZp z => [0x46#8, z] | .lsrAcc => [0x4A#8] | .lsrAbs w => [0x4E#8, loByte w, hiByte w]
  | .lsrZpx z => [0x56#8, z] | .lsrAbsx w => [0x5E#8, loByte w, hiByte w]
  | .rolZp z => [0x26#8, z] | .rolAcc => [0x2A#8] | .rolAbs w => [0x2E#8, loByte w, hiByte w]
  | .rolZpx z => [0x36#8, z] | .rolAbsx w => [0x3E#8, loByte w, hiByte w]
  | .rorZp z => [0x66#8, z] | .rorAcc => [0x6A#8] | .rorAbs w => [0x6E#8, loByte w, hiByte w]
  | .rorZpx z => [0x76#8, z] | .rorAbsx w => [0x7E#8, loByte w, hiByte w]
  | .incZp z => [0xE6#8, z] | .incAbs w => [0xEE#8, loByte w, hiByte w] | .incZpx z => [0xF6#8, z]
  | .incAbsx w => [0xFE#8, loByte w, hiByte w]
  | .decZp z => [0xC6#8, z] | .decAbs w => [0xCE#8, loByte w, hiByte w] | .decZpx z => [0xD6#8, z]
  | .decAbsx w => [0xDE#8, loByte w, hiByte w]
  | .inx => [0xE8#8]
  | .iny => [0xC8#8]
  | .dex => [0xCA#8]
  | .dey => [0x88#8]
  | .tax => [0xAA#8]
  | .tay => [0xA8#8]
  | .txa => [0x8A#8]
  | .tya => [0x98#8]
  | .tsx => [0xBA#8]
  | .txs => [0x9A#8]
  | .clc => [0x18#8]
  | .sec => [0x38#8]
  | .cli => [0x58#8]
  | .sei => [0x78#8]
  | .clv => [0xB8#8]
  | .cld => [0xD8#8]
  | .sed => [0xF8#8]
  | .bcc r => [0x90#8, r]
  | .bcs r => [0xB0#8, r]
  | .beq r => [0xF0#8, r]
  | .bne r => [0xD0#8, r]
  | .bmi r => [0x30#8, r]
  | .bpl r => [0x10#8, r]
  | .bvc r => [0x50#8, r]
  | .bvs r => [0x70#8, r]
  | .jmpAbs w => [0x4C#8, loByte w, hiByte w] | .jmpInd w => [0x6C#8, loByte w, hiByte w]
  | .jsr w => [0x20#8, loByte w, hiByte w]
  | .rts => [0x60#8]
  | .pha => [0x48#8]
  | .pla => [0x68#8]
  | .php => [0x08#8]
  | .plp => [0x28#8]
  | .brk p => [0x00#8, p]
  | .rti => [0x40#8]
  | .nop => [0xEA#8]

/-- The opcode byte of an instruction (opcode_table.json, `match`). -/
def opcodeOf (i : Instr) : Byte := (encode i).headD 0#8

end Sys2Proof
end

