-- ==== Sys2Proof/Machine/State.lean ====
section
/-! DEFINITION. The state of the machine as plain data, the ways a step can stop, and the state after
reset (10_state.md, 20_memory.md; INVENTORY.md '## State'). -/

namespace Sys2Proof.Machine

/-- Memory: the bytes that differ from what an unlisted address reads as, addresses strictly rising (R51,
R54; canonical form `Memory.wf`, Machine/Ops.lean). -/
abbrev Memory := List Host.Cell

/-- An output event (R48, R204). -/
inductive Event where
  /-- A write at IO_TTY (R60). -/
  | charOut (v : Byte)
  /-- The end of a `run` after that many steps (R200). -/
  | programHalted (steps : BitVec 64)
  deriving DecidableEq, Repr

/-- Everything the spec gives the machine. -/
structure State where
  /-- The accumulator (R16). -/
  a : Byte
  /-- Index register X (R16). -/
  x : Byte
  /-- Index register Y (R16). -/
  y : Byte
  /-- The stack pointer, an offset in page 0x01 (R19). -/
  sp : Byte
  /-- The processor status, `N V _ B D I Z C` from bit 7 to bit 0 (R26). -/
  p : Byte
  /-- The program counter (R22). -/
  pc : Addr
  /-- The cycle counter (R42). -/
  cycles : BitVec 64
  /-- The IRQ latch (R43). -/
  irqPending : Bool
  /-- The NMI latch (R44). -/
  nmiPending : Bool
  /-- Set by BRK, read by the run loop (R45). -/
  halted : Bool
  /-- Whether a ROM was loaded (R46). -/
  romLoaded : Bool
  /-- The keyboard buffer, oldest byte first, never trimmed (R47). -/
  kbdBuf : List Byte
  /-- The keyboard read cursor (R47). -/
  kbdCur : Nat
  /-- The event channel, oldest event first (R48). -/
  events : List Event
  /-- The 64 KiB of memory (R51). -/
  mem : Memory
  /-- The addressing unit's page-cross indicator of the running instruction (R100, R114). -/
  pageCross : Bool
  /-- Whether the running branch is taken (R95, R161). -/
  taken : Bool
  /-- The model's own field: how many draws of `Config.cycleCost` were made (notes/assumptions/3.md). -/
  draws : Nat
  deriving DecidableEq, Repr

/-- Why the machine stops with a fault. -/
inductive Fault where
  /-- `OpcodeNotImplemented(op)` (R191), raised by a step that fetches one of R89's opcode bytes, with the
  state the fault leaves: the interrupt service of that step head (if any) done, the opcode fetched, `pc`
  past it, `cycles` unchanged. Safe: the spec gives exactly this fault and ends the run at it (R192). -/
  | opcodeNotImplemented (op : Byte) (after : State)
  deriving DecidableEq, Repr

/-- Why an instruction is refused. -/
inductive Refusal where
  /-- Raised by an arm of `exec` whose instruction has no meaning yet; no arm does. Safe. -/
  | notModelled (mnemonic : String)
  deriving DecidableEq, Repr

/-- The machine right after reset: `boot` (R206) of a new machine (R205), memory zeroed, PC the word at
0xFFFC of zeroed RAM (R25, R50). `pageCross`, `taken` and `draws` are DESIGN CHOICE
(notes/assumptions/1.md, 3.md, 6.md). -/
def State.reset : State where
  a := 0#8
  x := 0#8
  y := 0#8
  sp := Config.resetSp
  p := Config.resetP
  pc := 0x0000#16
  cycles := 0#64
  irqPending := false
  nmiPending := false
  halted := false
  romLoaded := false
  kbdBuf := []
  kbdCur := 0
  events := []
  mem := []
  pageCross := false
  taken := false
  draws := 0

end Sys2Proof.Machine
end

