-- ==== Sys2Proof/Machine/Ops.lean ====
section
/-! DEFINITION. The named operations over registers and memory, and taking an interrupt (R183) with the
return from one (R178) beside it. Every access of the core goes through `read8` and `write8` (R55). -/

namespace Sys2Proof.Machine

/-- What a meaning and a step answer. -/
abbrev Result := Host.Outcome State Fault Refusal

/-! ### Field updates -/

def State.setA (v : Byte) (s : State) : State := { s with a := v }
def State.setX (v : Byte) (s : State) : State := { s with x := v }
def State.setY (v : Byte) (s : State) : State := { s with y := v }
def State.setSp (v : Byte) (s : State) : State := { s with sp := v }
def State.setP (v : Byte) (s : State) : State := { s with p := v }
def State.setPc (v : Addr) (s : State) : State := { s with pc := v }
def State.setCycles (v : BitVec 64) (s : State) : State := { s with cycles := v }
def State.setIrqPending (b : Bool) (s : State) : State := { s with irqPending := b }
def State.setNmiPending (b : Bool) (s : State) : State := { s with nmiPending := b }
def State.setHalted (b : Bool) (s : State) : State := { s with halted := b }
def State.setRomLoaded (b : Bool) (s : State) : State := { s with romLoaded := b }
def State.setKbdBuf (ks : List Byte) (s : State) : State := { s with kbdBuf := ks }
def State.setKbdCur (n : Nat) (s : State) : State := { s with kbdCur := n }
def State.setEvents (es : List Event) (s : State) : State := { s with events := es }
def State.setMem (m : Memory) (s : State) : State := { s with mem := m }
def State.setPageCross (b : Bool) (s : State) : State := { s with pageCross := b }
def State.setTaken (b : Bool) (s : State) : State := { s with taken := b }
def State.setDraws (n : Nat) (s : State) : State := { s with draws := n }

/-! ### Bits of a byte -/

/-- `p` with bit `k` set to `b` and the other bits as they are (R27). -/
def setBit (p : Byte) (k : Nat) (b : Bool) : Byte :=
  if b then p ||| BitVec.twoPow 8 k else p &&& ~~~BitVec.twoPow 8 k

/-! ### The status bits -/

/-- The bits of P (R26); `u` is the unused bit 5. -/
inductive Flag where
  | c | z | i | d | b | u | v | n
  deriving DecidableEq, Repr

/-- The bit number of a flag (R26). -/
def Flag.bit : Flag → Nat
  | .c => 0 | .z => 1 | .i => 2 | .d => 3 | .b => 4 | .u => 5 | .v => 6 | .n => 7

/-- `get_flag` (R27). -/
def State.flag (f : Flag) (s : State) : Bool := s.p.getLsbD f.bit

/-- `set_flag` (R27). -/
def State.setFlag (f : Flag) (b : Bool) (s : State) : State := s.setP (setBit s.p f.bit b)

/-! ### The register file -/

/-- The three registers of the register file (R16). -/
inductive Reg where
  | a | x | y
  deriving DecidableEq, Repr

/-- Reading a register (R16: no aliases, no hardwired register). -/
def State.getReg (r : Reg) (s : State) : Byte :=
  match r with
  | .a => s.a
  | .x => s.x
  | .y => s.y

/-- Writing a register (R16). -/
def State.setReg (r : Reg) (v : Byte) (s : State) : State :=
  match r with
  | .a => s.setA v
  | .x => s.setX v
  | .y => s.setY v

/-! ### Memory as data -/

/-- The byte at an address; an unlisted address reads as R54's zero. -/
def Memory.read : Memory → Nat → Byte
  | [], _ => Config.blankByte
  | (k, v) :: m, a => if k = a then v else Memory.read m a

/-- Storing one byte; the form stays canonical (Laws/Memory.lean). -/
def Memory.write : Memory → Nat → Byte → Memory
  | [], a, v => if v = Config.blankByte then [] else [(a, v)]
  | (k, w) :: m, a, v =>
    if a < k then (if v = Config.blankByte then (k, w) :: m else (a, v) :: (k, w) :: m)
    else if a = k then (if v = Config.blankByte then m else (a, v) :: m)
    else (k, w) :: Memory.write m a v

/-- The canonical form: addresses strictly rising and in the address space (R51), no entry equal to what an
unlisted address reads as. -/
abbrev Memory.wf (m : Memory) : Prop :=
  m.Pairwise (fun c d => c.1 < d.1) ∧ ∀ c ∈ m, c.1 < Config.memorySize ∧ c.2 ≠ Config.blankByte

/-- `mem[a]` (R12) and the host's `peek` (R61): no side effect. -/
def State.peek (a : Addr) (s : State) : Byte := s.mem.read a.toNat

/-- `mem[a] <- v` and the host's `poke` (R61): no I/O behaviour. -/
def State.poke (a : Addr) (v : Byte) (s : State) : State := s.setMem (s.mem.write a.toNat v)

/-! ### The bus -/

/-- `KbdRead()` (R57): the next unread byte, or 0x00 when the buffer is exhausted. -/
def State.kbdRead (s : State) : Byte × State :=
  match s.kbdBuf[s.kbdCur]? with
  | some v => (v, s.setKbdCur (s.kbdCur + 1))
  | none => (0#8, s)

/-- `KbdWrite(v)` (R59): stored or not, as the OPEN parameter says. -/
def State.kbdWrite (v : Byte) (s : State) : State :=
  if Config.kbdWriteStores then s.poke Config.ioKbd v else s

/-- Appending to the event channel (R48). -/
def State.emit (e : Event) (s : State) : State := s.setEvents (s.events ++ [e])

/-- `Read8(addr)` (R56). -/
def State.read8 (addr : Addr) (s : State) : Byte × State :=
  if addr = Config.ioKbd then s.kbdRead else (s.peek addr, s)

/-- `Write8(addr, v)` (R58, R60). -/
def State.write8 (addr : Addr) (v : Byte) (s : State) : State :=
  if addr = Config.ioKbd then s.kbdWrite v
  else if addr = Config.ioTty then (s.poke addr v).emit (.charOut v)
  else s.poke addr v

/-- `Read16(a)` (R66): low byte first, the second address modulo 65536. -/
def State.read16 (addr : Addr) (s : State) : Addr × State :=
  let lo := s.read8 addr
  let hi := lo.2.read8 (addr + 1#16)
  (joinBytes lo.1 hi.1, hi.2)

/-! ### Fetching at PC -/

/-- `Fetch8()` (R93). -/
def State.fetch8 (s : State) : Byte × State :=
  let r := s.read8 s.pc
  (r.1, r.2.setPc (r.2.pc + 1#16))

/-! ### The stack -/

/-- `0x0100 | SP` (R19). -/
def stackAddr (sp : Byte) : Addr := Config.stackPage ||| sp.setWidth 16

/-- `Push8(v)` (R71): write, then decrement. -/
def State.push8 (v : Byte) (s : State) : State :=
  let t := s.write8 (stackAddr s.sp) v
  t.setSp (t.sp - 1#8)

/-- `Pop8()` (R72): increment, then read. -/
def State.pop8 (s : State) : Byte × State :=
  let t := s.setSp (s.sp + 1#8)
  t.read8 (stackAddr t.sp)

/-- `Push16(w)` (R73): high byte, then low byte. -/
def State.push16 (w : Addr) (s : State) : State :=
  (s.push8 (hiByte w)).push8 (loByte w)

/-- `Pop16()` (R74): low byte, then high byte. -/
def State.pop16 (s : State) : Addr × State :=
  let lo := s.pop8
  let hi := lo.2.pop8
  (joinBytes lo.1 hi.1, hi.2)

/-! ### Taking an interrupt, and returning from one -/

/-- The status byte pushed: `P | 0x30` by BRK and PHP (R38), `(P | 0x20) & 0xEF` by IRQ and NMI service
(R39; 90_conflicts.md C1). -/
def pushedStatus (p : Byte) (setB : Bool) : Byte :=
  if setB then p ||| 0x30#8 else (p ||| 0x20#8) &&& 0xEF#8

/-- The status a pulled byte becomes (R40). -/
def pulledStatus (v : Byte) : Byte := (v &&& 0xEF#8) ||| 0x20#8

/-- `ServiceSequence(vector, set_b)` (R183), shared by NMI, IRQ and BRK: push PC and the status, set I, load
PC from the vector through the bus. -/
def State.serviceSequence (vector : Addr) (setB : Bool) (s : State) : State :=
  let pushed := s.push16 s.pc
  let saved := pushed.push8 (pushedStatus pushed.p setB)
  let masked := saved.setFlag .i true
  let target := masked.read16 vector
  target.2.setPc target.1

/-- The return from an interrupt (R178): the status by R40, then PC low and high, no `+ 1`. -/
def State.returnFromInterrupt (s : State) : State :=
  let status := s.pop8
  let back := (status.2.setP (pulledStatus status.1)).pop16
  back.2.setPc back.1

/-- Whether the head of a step services an interrupt (R182). -/
def State.interruptDue (s : State) : Bool :=
  s.nmiPending || (s.irqPending && !s.flag .i)

/-- `ServiceInterrupts()` (R182): NMI before IRQ, at most one. -/
def State.serviceInterrupts (s : State) : State :=
  if s.nmiPending then (s.serviceSequence Config.nmiVector false).setNmiPending false
  else if s.irqPending && !s.flag .i then
    (s.serviceSequence Config.irqVector false).setIrqPending false
  else s

end Sys2Proof.Machine
end

