-- ==== Sys2Proof/Machine/Flags.lean ====
section
/-! DEFINITION. Every flag computation of the spec: `UpdateZN`, the adder, the comparator, the bit test and
the four shifts (10_state.md R28, 42_arithmetic.md R124 to R127, 43_logic.md R136, 44_shift_rotate.md). -/

namespace Sys2Proof.Machine

/-- `UpdateZN(v)` (R28). -/
def State.updateZN (v : Byte) (s : State) : State :=
  (s.setFlag .z (v == 0#8)).setFlag .n v.msb

/-! ### The ALU -/

/-- What the adder and the shifter answer: a byte and a carry, and for the adder an overflow. -/
structure Sum where
  value : Byte
  carry : Bool
  overflow : Bool
  deriving DecidableEq, Repr

/-- `AddC(a, m, c)` (R126), always binary (R125). -/
def addC (a m : Byte) (c : Bool) : Sum :=
  let sum := a.toNat + m.toNat + c.toNat
  let r := BitVec.ofNat 8 sum
  { value := r
    carry := sum > 0xFF
    overflow := ((a ^^^ m) ^^^ 0xFF#8) &&& (a ^^^ r) &&& 0x80#8 != 0 }

/-- A byte and the bit shifted out. -/
structure Shifted where
  value : Byte
  carry : Bool
  deriving DecidableEq, Repr

/-- ASL (R138): C is bit 7, the carry in is not used. -/
def shiftAsl (_c : Bool) (v : Byte) : Shifted := ⟨v <<< 1, v.getLsbD 7⟩

/-- LSR (R139): C is bit 0, the carry in is not used. -/
def shiftLsr (_c : Bool) (v : Byte) : Shifted := ⟨v >>> 1, v.getLsbD 0⟩

/-- ROL (R140): the old C enters at bit 0. -/
def shiftRol (c : Bool) (v : Byte) : Shifted :=
  ⟨(v <<< 1) ||| (BitVec.ofBool c).setWidth 8, v.getLsbD 7⟩

/-- ROR (R141): the old C enters at bit 7. -/
def shiftRor (c : Bool) (v : Byte) : Shifted :=
  ⟨(v >>> 1) ||| ((BitVec.ofBool c).setWidth 8 <<< 7), v.getLsbD 0⟩

/-! ### The flags an operation writes -/

/-- A <- A + m + C with C, V, Z and N written (R128); SBC gives the complement of its operand (R129). -/
def State.addToA (m : Byte) (s : State) : State :=
  let r := addC s.a m (s.flag .c)
  (((s.setA r.value).setFlag .c r.carry).setFlag .v r.overflow).updateZN r.value

/-- `Compare(reg, m)` (R127): C, Z and N only. -/
def State.compareFlags (reg m : Byte) (s : State) : State :=
  (s.setFlag .c (decide (reg.toNat ≥ m.toNat))).updateZN (reg - m)

/-- BIT (R136): Z from A & M, N and V from M alone. -/
def State.bitFlags (m : Byte) (s : State) : State :=
  ((s.setFlag .z (s.a &&& m == 0#8)).setFlag .n (m.getLsbD 7)).setFlag .v (m.getLsbD 6)

/-- The flags of a shift or rotate (R138 to R141): C the bit shifted out, Z and N of the result. -/
def State.shiftFlags (r : Shifted) (s : State) : State :=
  (s.setFlag .c r.carry).updateZN r.value

end Sys2Proof.Machine
end

