-- ==== Sys2Proof/Machine/Operands.lean ====
section
/-! DEFINITION. The addressing unit (40_fetch_decode_addressing.md R100 to R113) and the operand classes
built on it (R115): every operand form of the hardware, once.

PC is past the operand bytes when these run: the step fetched them first, in the order the spec fetches
them (notes/assumptions/5.md). -/

namespace Sys2Proof.Machine

/-! ### Effective addresses -/

/-- The eight modes that address a data byte in memory, with their operand bytes (R81). -/
inductive MemMode where
  | zp (z : Byte)
  | zpx (z : Byte)
  | zpy (z : Byte)
  | abs (w : Addr)
  | absx (w : Addr)
  | absy (w : Addr)
  | indx (z : Byte)
  | indy (z : Byte)
  deriving DecidableEq, Repr

/-- `Addr(ea, pc)` (R100): an effective address and the page-cross indicator. -/
structure EffAddr where
  addr : Addr
  cross : Bool
  deriving DecidableEq, Repr

/-- Two addresses differ in their high byte (R11). -/
def crossesPage (a b : Addr) : Bool := hiByte a != hiByte b

/-- `zext_16` (R11). -/
def zext (v : Byte) : Addr := v.setWidth 16

/-- `sext_16` (R11). -/
def sext (v : Byte) : Addr := v.signExtend 16

/-- A base plus an index register, modulo 65536, with its page-cross indicator (R108, R109, R111). -/
def indexedBy (base : Addr) (index : Byte) : EffAddr :=
  ⟨base + zext index, crossesPage base (base + zext index)⟩

/-- A 16-bit pointer in the zero page, wrapping inside it, low byte first (R110, R111). -/
def State.readPointer (z : Byte) (s : State) : Addr × State :=
  let lo := s.read8 (zext z)
  let hi := lo.2.read8 (zext (z + 1#8))
  (joinBytes lo.1 hi.1, hi.2)

/-- `EA(mode)` of the modes that address data (R104 to R111). -/
def State.effAddr (m : MemMode) (s : State) : EffAddr × State :=
  match m with
  | .zp z => (⟨zext z, false⟩, s)
  | .zpx z => (⟨zext (z + s.x), false⟩, s)
  | .zpy z => (⟨zext (z + s.y), false⟩, s)
  | .abs w => (⟨w, false⟩, s)
  | .absx w => (indexedBy w s.x, s)
  | .absy w => (indexedBy w s.y, s)
  | .indx z =>
    let ptr := s.readPointer (z + s.x)
    (⟨ptr.1, false⟩, ptr.2)
  | .indy z =>
    let ptr := s.readPointer z
    (indexedBy ptr.1 ptr.2.y, ptr.2)

/-- The addressing unit run once for an instruction: the address, with the indicator recorded (R99, R100). -/
def State.address (m : MemMode) (s : State) : Addr × State :=
  let e := s.effAddr m
  (e.1.addr, e.2.setPageCross e.1.cross)

/-! ### The read class -/

/-- Where a read-class instruction takes its operand M from (R115). -/
inductive Source where
  /-- The immediate byte itself; its one bus read was its fetch (R103). -/
  | imm (i : Byte)
  | mem (m : MemMode)
  deriving DecidableEq, Repr

/-- `M <- Read8(ea)` (R115). -/
def State.readSource (src : Source) (s : State) : Byte × State :=
  match src with
  | .imm i => (i, s)
  | .mem m =>
    let e := s.address m
    e.2.read8 e.1

/-- LDA, LDX, LDY (R118 to R120). -/
def State.load (r : Reg) (src : Source) (s : State) : State :=
  let m := s.readSource src
  (m.2.setReg r m.1).updateZN m.1

/-- ADC (R128). -/
def State.adc (src : Source) (s : State) : State :=
  let m := s.readSource src
  m.2.addToA m.1

/-- SBC (R129): ADC of the complement. -/
def State.sbc (src : Source) (s : State) : State :=
  let m := s.readSource src
  m.2.addToA (m.1 ^^^ 0xFF#8)

/-- CMP, CPX, CPY (R130 to R132). -/
def State.compare (r : Reg) (src : Source) (s : State) : State :=
  let m := s.readSource src
  m.2.compareFlags (m.2.getReg r) m.1

/-- AND, ORA, EOR (R133 to R135), by the operation `op` on A and M. -/
def State.logic (op : Byte → Byte → Byte) (src : Source) (s : State) : State :=
  let m := s.readSource src
  let r := op m.2.a m.1
  (m.2.setA r).updateZN r

/-- BIT (R136). -/
def State.bitTest (mode : MemMode) (s : State) : State :=
  let m := s.readSource (.mem mode)
  m.2.bitFlags m.1

/-! ### The write class -/

/-- STA, STX, STY (R121 to R123): one write, no read of the target. -/
def State.store (r : Reg) (mode : MemMode) (s : State) : State :=
  let e := s.address mode
  e.2.write8 e.1 (e.2.getReg r)

/-! ### The read-modify-write class -/

/-- Where a shift or rotate takes its operand and puts its result (R137). -/
inductive Place where
  | acc
  | mem (m : MemMode)
  deriving DecidableEq, Repr

/-- `LoadOp`, the shift `f` of the old C and the operand, `StoreOp`, then the flags (R137 to R141). -/
def State.shift (f : Bool → Byte → Shifted) (place : Place) (s : State) : State :=
  match place with
  | .acc =>
    let r := f (s.flag .c) s.a
    (s.setA r.value).shiftFlags r
  | .mem mode =>
    let e := s.address mode
    let v := e.2.read8 e.1
    let r := f (v.2.flag .c) v.1
    (v.2.write8 e.1 r.value).shiftFlags r

/-- INC and DEC on memory (R142, R143): `d` is 1 or -1, one read, then one write. -/
def State.addToMemory (d : Byte) (mode : MemMode) (s : State) : State :=
  let e := s.address mode
  let v := e.2.read8 e.1
  let r := v.1 + d
  (v.2.write8 e.1 r).updateZN r

/-! ### The implied class over the register file -/

/-- INX, INY, DEX, DEY (R144 to R147). -/
def State.addToReg (r : Reg) (d : Byte) (s : State) : State :=
  let v := s.getReg r + d
  (s.setReg r v).updateZN v

/-- A transfer into a register of the file (R148 to R152). -/
def State.transfer (v : Byte) (r : Reg) (s : State) : State :=
  (s.setReg r v).updateZN v

/-! ### The control class -/

/-- `EA(rel)` (R112): the target and its indicator, from PC past the offset byte. -/
def branchTarget (pc : Addr) (r : Byte) : EffAddr :=
  ⟨pc + sext r, crossesPage pc (pc + sext r)⟩

/-- `Branch(cond)` (R161). -/
def State.branch (cond : Bool) (r : Byte) (s : State) : State :=
  let t := branchTarget s.pc r
  let s' := (s.setPageCross t.cross).setTaken cond
  if cond then s'.setPc t.addr else s'

/-- The address of the pointer's high byte in JMP indirect (R113): the page of the pointer is kept. -/
def pageWrapNext (ptr : Addr) : Addr := (ptr &&& 0xFF00#16) ||| ((ptr + 1#16) &&& 0x00FF#16)

/-- `EA(ind)` (R113): low byte at the pointer, high byte with the page-wrap bug. -/
def State.indirectTarget (ptr : Addr) (s : State) : Addr × State :=
  let lo := s.read8 ptr
  let hi := lo.2.read8 (pageWrapNext ptr)
  (joinBytes lo.1 hi.1, hi.2)

/-- JSR (R171): the address of the last operand byte is pushed. -/
def State.callSubroutine (target : Addr) (s : State) : State :=
  (s.push16 (s.pc - 1#16)).setPc target

/-- RTS (R172): the stacked word plus one. -/
def State.returnFromSubroutine (s : State) : State :=
  let w := s.pop16
  w.2.setPc (w.1 + 1#16)

end Sys2Proof.Machine
end

