-- ==== Sys2Proof/Machine/Arith.lean ====
section
/-! DEFINITION. Arithmetic and compare (42_arithmetic.md): one meaning per instruction, over the shared
operations of Machine/Operands.lean and Machine/Ops.lean. Each runs after the step fetched the opcode and
its operand bytes (R117). -/

namespace Sys2Proof.Machine

/-- `ADC (z,X)` (R128). -/
def execAdcIndx (z : Byte) (s : State) : Result := .next (s.adc (.mem (.indx z)))

/-- `ADC z` (R128). -/
def execAdcZp (z : Byte) (s : State) : Result := .next (s.adc (.mem (.zp z)))

/-- `ADC #i` (R128). -/
def execAdcImm (i : Byte) (s : State) : Result := .next (s.adc (.imm i))

/-- `ADC w` (R128). -/
def execAdcAbs (w : Addr) (s : State) : Result := .next (s.adc (.mem (.abs w)))

/-- `ADC (z),Y` (R128). -/
def execAdcIndy (z : Byte) (s : State) : Result := .next (s.adc (.mem (.indy z)))

/-- `ADC z,X` (R128). -/
def execAdcZpx (z : Byte) (s : State) : Result := .next (s.adc (.mem (.zpx z)))

/-- `ADC w,Y` (R128). -/
def execAdcAbsy (w : Addr) (s : State) : Result := .next (s.adc (.mem (.absy w)))

/-- `ADC w,X` (R128). -/
def execAdcAbsx (w : Addr) (s : State) : Result := .next (s.adc (.mem (.absx w)))

/-- `SBC (z,X)` (R129). -/
def execSbcIndx (z : Byte) (s : State) : Result := .next (s.sbc (.mem (.indx z)))

/-- `SBC z` (R129). -/
def execSbcZp (z : Byte) (s : State) : Result := .next (s.sbc (.mem (.zp z)))

/-- `SBC #i` (R129). -/
def execSbcImm (i : Byte) (s : State) : Result := .next (s.sbc (.imm i))

/-- `SBC w` (R129). -/
def execSbcAbs (w : Addr) (s : State) : Result := .next (s.sbc (.mem (.abs w)))

/-- `SBC (z),Y` (R129). -/
def execSbcIndy (z : Byte) (s : State) : Result := .next (s.sbc (.mem (.indy z)))

/-- `SBC z,X` (R129). -/
def execSbcZpx (z : Byte) (s : State) : Result := .next (s.sbc (.mem (.zpx z)))

/-- `SBC w,Y` (R129). -/
def execSbcAbsy (w : Addr) (s : State) : Result := .next (s.sbc (.mem (.absy w)))

/-- `SBC w,X` (R129). -/
def execSbcAbsx (w : Addr) (s : State) : Result := .next (s.sbc (.mem (.absx w)))

/-- `CMP (z,X)` (R130). -/
def execCmpIndx (z : Byte) (s : State) : Result := .next (s.compare .a (.mem (.indx z)))

/-- `CMP z` (R130). -/
def execCmpZp (z : Byte) (s : State) : Result := .next (s.compare .a (.mem (.zp z)))

/-- `CMP #i` (R130). -/
def execCmpImm (i : Byte) (s : State) : Result := .next (s.compare .a (.imm i))

/-- `CMP w` (R130). -/
def execCmpAbs (w : Addr) (s : State) : Result := .next (s.compare .a (.mem (.abs w)))

/-- `CMP (z),Y` (R130). -/
def execCmpIndy (z : Byte) (s : State) : Result := .next (s.compare .a (.mem (.indy z)))

/-- `CMP z,X` (R130). -/
def execCmpZpx (z : Byte) (s : State) : Result := .next (s.compare .a (.mem (.zpx z)))

/-- `CMP w,Y` (R130). -/
def execCmpAbsy (w : Addr) (s : State) : Result := .next (s.compare .a (.mem (.absy w)))

/-- `CMP w,X` (R130). -/
def execCmpAbsx (w : Addr) (s : State) : Result := .next (s.compare .a (.mem (.absx w)))

/-- `CPX #i` (R131). -/
def execCpxImm (i : Byte) (s : State) : Result := .next (s.compare .x (.imm i))

/-- `CPX z` (R131). -/
def execCpxZp (z : Byte) (s : State) : Result := .next (s.compare .x (.mem (.zp z)))

/-- `CPX w` (R131). -/
def execCpxAbs (w : Addr) (s : State) : Result := .next (s.compare .x (.mem (.abs w)))

/-- `CPY #i` (R132). -/
def execCpyImm (i : Byte) (s : State) : Result := .next (s.compare .y (.imm i))

/-- `CPY z` (R132). -/
def execCpyZp (z : Byte) (s : State) : Result := .next (s.compare .y (.mem (.zp z)))

/-- `CPY w` (R132). -/
def execCpyAbs (w : Addr) (s : State) : Result := .next (s.compare .y (.mem (.abs w)))

end Sys2Proof.Machine
end

