-- ==== Sys2Proof/Machine/BranchJump.lean ====
section
/-! DEFINITION. Branches, jumps and subroutines (47_branch_jump.md): one meaning per instruction, over the shared
operations of Machine/Operands.lean and Machine/Ops.lean. Each runs after the step fetched the opcode and
its operand bytes (R117). -/

namespace Sys2Proof.Machine

/-- `BCC r` (R162). -/
def execBcc (r : Byte) (s : State) : Result := .next (s.branch (!s.flag .c) r)

/-- `BCS r` (R163). -/
def execBcs (r : Byte) (s : State) : Result := .next (s.branch (s.flag .c) r)

/-- `BEQ r` (R164). -/
def execBeq (r : Byte) (s : State) : Result := .next (s.branch (s.flag .z) r)

/-- `BNE r` (R165). -/
def execBne (r : Byte) (s : State) : Result := .next (s.branch (!s.flag .z) r)

/-- `BMI r` (R166). -/
def execBmi (r : Byte) (s : State) : Result := .next (s.branch (s.flag .n) r)

/-- `BPL r` (R167). -/
def execBpl (r : Byte) (s : State) : Result := .next (s.branch (!s.flag .n) r)

/-- `BVC r` (R168). -/
def execBvc (r : Byte) (s : State) : Result := .next (s.branch (!s.flag .v) r)

/-- `BVS r` (R169). -/
def execBvs (r : Byte) (s : State) : Result := .next (s.branch (s.flag .v) r)

/-- `JMP w` (R170). -/
def execJmpAbs (w : Addr) (s : State) : Result := .next (s.setPc w)

/-- `JMP (w)` (R170), with the page-wrap bug of R113. -/
def execJmpInd (w : Addr) (s : State) : Result :=
  let t := s.indirectTarget w
  .next (t.2.setPc t.1)

/-- `JSR w` (R171). -/
def execJsr (w : Addr) (s : State) : Result := .next (s.callSubroutine w)

/-- `RTS` (R172). -/
def execRts (s : State) : Result := .next (s.returnFromSubroutine)

end Sys2Proof.Machine
end

