-- ==== Sys2Proof/Machine/IncDec.lean ====
section
/-! DEFINITION. Increment and decrement (45_inc_dec.md): one meaning per instruction, over the shared
operations of Machine/Operands.lean and Machine/Ops.lean. Each runs after the step fetched the opcode and
its operand bytes (R117). -/

namespace Sys2Proof.Machine

/-- `INC z` (R142). -/
def execIncZp (z : Byte) (s : State) : Result := .next (s.addToMemory 1#8 (.zp z))

/-- `INC w` (R142). -/
def execIncAbs (w : Addr) (s : State) : Result := .next (s.addToMemory 1#8 (.abs w))

/-- `INC z,X` (R142). -/
def execIncZpx (z : Byte) (s : State) : Result := .next (s.addToMemory 1#8 (.zpx z))

/-- `INC w,X` (R142). -/
def execIncAbsx (w : Addr) (s : State) : Result := .next (s.addToMemory 1#8 (.absx w))

/-- `DEC z` (R143). -/
def execDecZp (z : Byte) (s : State) : Result := .next (s.addToMemory (-1#8) (.zp z))

/-- `DEC w` (R143). -/
def execDecAbs (w : Addr) (s : State) : Result := .next (s.addToMemory (-1#8) (.abs w))

/-- `DEC z,X` (R143). -/
def execDecZpx (z : Byte) (s : State) : Result := .next (s.addToMemory (-1#8) (.zpx z))

/-- `DEC w,X` (R143). -/
def execDecAbsx (w : Addr) (s : State) : Result := .next (s.addToMemory (-1#8) (.absx w))

/-- `INX` (R144). -/
def execInx (s : State) : Result := .next (s.addToReg .x 1#8)

/-- `INY` (R145). -/
def execIny (s : State) : Result := .next (s.addToReg .y 1#8)

/-- `DEX` (R146). -/
def execDex (s : State) : Result := .next (s.addToReg .x (-1#8))

/-- `DEY` (R147). -/
def execDey (s : State) : Result := .next (s.addToReg .y (-1#8))

end Sys2Proof.Machine
end

