-- ==== Sys2Proof/Machine/LoadStore.lean ====
section
/-! DEFINITION. Load and store (41_load_store.md): one meaning per instruction, over the shared
operations of Machine/Operands.lean and Machine/Ops.lean. Each runs after the step fetched the opcode and
its operand bytes (R117). -/

namespace Sys2Proof.Machine

/-- `LDA (z,X)` (R118). -/
def execLdaIndx (z : Byte) (s : State) : Result := .next (s.load .a (.mem (.indx z)))

/-- `LDA z` (R118). -/
def execLdaZp (z : Byte) (s : State) : Result := .next (s.load .a (.mem (.zp z)))

/-- `LDA #i` (R118). -/
def execLdaImm (i : Byte) (s : State) : Result := .next (s.load .a (.imm i))

/-- `LDA w` (R118). -/
def execLdaAbs (w : Addr) (s : State) : Result := .next (s.load .a (.mem (.abs w)))

/-- `LDA (z),Y` (R118). -/
def execLdaIndy (z : Byte) (s : State) : Result := .next (s.load .a (.mem (.indy z)))

/-- `LDA z,X` (R118). -/
def execLdaZpx (z : Byte) (s : State) : Result := .next (s.load .a (.mem (.zpx z)))

/-- `LDA w,Y` (R118). -/
def execLdaAbsy (w : Addr) (s : State) : Result := .next (s.load .a (.mem (.absy w)))

/-- `LDA w,X` (R118). -/
def execLdaAbsx (w : Addr) (s : State) : Result := .next (s.load .a (.mem (.absx w)))

/-- `LDX #i` (R119). -/
def execLdxImm (i : Byte) (s : State) : Result := .next (s.load .x (.imm i))

/-- `LDX z` (R119). -/
def execLdxZp (z : Byte) (s : State) : Result := .next (s.load .x (.mem (.zp z)))

/-- `LDX w` (R119). -/
def execLdxAbs (w : Addr) (s : State) : Result := .next (s.load .x (.mem (.abs w)))

/-- `LDX z,Y` (R119). -/
def execLdxZpy (z : Byte) (s : State) : Result := .next (s.load .x (.mem (.zpy z)))

/-- `LDX w,Y` (R119). -/
def execLdxAbsy (w : Addr) (s : State) : Result := .next (s.load .x (.mem (.absy w)))

/-- `LDY #i` (R120). -/
def execLdyImm (i : Byte) (s : State) : Result := .next (s.load .y (.imm i))

/-- `LDY z` (R120). -/
def execLdyZp (z : Byte) (s : State) : Result := .next (s.load .y (.mem (.zp z)))

/-- `LDY w` (R120). -/
def execLdyAbs (w : Addr) (s : State) : Result := .next (s.load .y (.mem (.abs w)))

/-- `LDY z,X` (R120). -/
def execLdyZpx (z : Byte) (s : State) : Result := .next (s.load .y (.mem (.zpx z)))

/-- `LDY w,X` (R120). -/
def execLdyAbsx (w : Addr) (s : State) : Result := .next (s.load .y (.mem (.absx w)))

/-- `STA (z,X)` (R121). -/
def execStaIndx (z : Byte) (s : State) : Result := .next (s.store .a (.indx z))

/-- `STA z` (R121). -/
def execStaZp (z : Byte) (s : State) : Result := .next (s.store .a (.zp z))

/-- `STA w` (R121). -/
def execStaAbs (w : Addr) (s : State) : Result := .next (s.store .a (.abs w))

/-- `STA (z),Y` (R121). -/
def execStaIndy (z : Byte) (s : State) : Result := .next (s.store .a (.indy z))

/-- `STA z,X` (R121). -/
def execStaZpx (z : Byte) (s : State) : Result := .next (s.store .a (.zpx z))

/-- `STA w,Y` (R121). -/
def execStaAbsy (w : Addr) (s : State) : Result := .next (s.store .a (.absy w))

/-- `STA w,X` (R121). -/
def execStaAbsx (w : Addr) (s : State) : Result := .next (s.store .a (.absx w))

/-- `STX z` (R122). -/
def execStxZp (z : Byte) (s : State) : Result := .next (s.store .x (.zp z))

/-- `STX w` (R122). -/
def execStxAbs (w : Addr) (s : State) : Result := .next (s.store .x (.abs w))

/-- `STX z,Y` (R122). -/
def execStxZpy (z : Byte) (s : State) : Result := .next (s.store .x (.zpy z))

/-- `STY z` (R123). -/
def execStyZp (z : Byte) (s : State) : Result := .next (s.store .y (.zp z))

/-- `STY w` (R123). -/
def execStyAbs (w : Addr) (s : State) : Result := .next (s.store .y (.abs w))

/-- `STY z,X` (R123). -/
def execStyZpx (z : Byte) (s : State) : Result := .next (s.store .y (.zpx z))

end Sys2Proof.Machine
end

