-- ==== Sys2Proof/Machine/Logic.lean ====
section
/-! DEFINITION. Logic and bit test (43_logic.md): one meaning per instruction, over the shared
operations of Machine/Operands.lean and Machine/Ops.lean. Each runs after the step fetched the opcode and
its operand bytes (R117). -/

namespace Sys2Proof.Machine

/-- `AND (z,X)` (R133). -/
def execAndIndx (z : Byte) (s : State) : Result := .next (s.logic (· &&& ·) (.mem (.indx z)))

/-- `AND z` (R133). -/
def execAndZp (z : Byte) (s : State) : Result := .next (s.logic (· &&& ·) (.mem (.zp z)))

/-- `AND #i` (R133). -/
def execAndImm (i : Byte) (s : State) : Result := .next (s.logic (· &&& ·) (.imm i))

/-- `AND w` (R133). -/
def execAndAbs (w : Addr) (s : State) : Result := .next (s.logic (· &&& ·) (.mem (.abs w)))

/-- `AND (z),Y` (R133). -/
def execAndIndy (z : Byte) (s : State) : Result := .next (s.logic (· &&& ·) (.mem (.indy z)))

/-- `AND z,X` (R133). -/
def execAndZpx (z : Byte) (s : State) : Result := .next (s.logic (· &&& ·) (.mem (.zpx z)))

/-- `AND w,Y` (R133). -/
def execAndAbsy (w : Addr) (s : State) : Result := .next (s.logic (· &&& ·) (.mem (.absy w)))

/-- `AND w,X` (R133). -/
def execAndAbsx (w : Addr) (s : State) : Result := .next (s.logic (· &&& ·) (.mem (.absx w)))

/-- `ORA (z,X)` (R134). -/
def execOraIndx (z : Byte) (s : State) : Result := .next (s.logic (· ||| ·) (.mem (.indx z)))

/-- `ORA z` (R134). -/
def execOraZp (z : Byte) (s : State) : Result := .next (s.logic (· ||| ·) (.mem (.zp z)))

/-- `ORA #i` (R134). -/
def execOraImm (i : Byte) (s : State) : Result := .next (s.logic (· ||| ·) (.imm i))

/-- `ORA w` (R134). -/
def execOraAbs (w : Addr) (s : State) : Result := .next (s.logic (· ||| ·) (.mem (.abs w)))

/-- `ORA (z),Y` (R134). -/
def execOraIndy (z : Byte) (s : State) : Result := .next (s.logic (· ||| ·) (.mem (.indy z)))

/-- `ORA z,X` (R134). -/
def execOraZpx (z : Byte) (s : State) : Result := .next (s.logic (· ||| ·) (.mem (.zpx z)))

/-- `ORA w,Y` (R134). -/
def execOraAbsy (w : Addr) (s : State) : Result := .next (s.logic (· ||| ·) (.mem (.absy w)))

/-- `ORA w,X` (R134). -/
def execOraAbsx (w : Addr) (s : State) : Result := .next (s.logic (· ||| ·) (.mem (.absx w)))

/-- `EOR (z,X)` (R135). -/
def execEorIndx (z : Byte) (s : State) : Result := .next (s.logic (· ^^^ ·) (.mem (.indx z)))

/-- `EOR z` (R135). -/
def execEorZp (z : Byte) (s : State) : Result := .next (s.logic (· ^^^ ·) (.mem (.zp z)))

/-- `EOR #i` (R135). -/
def execEorImm (i : Byte) (s : State) : Result := .next (s.logic (· ^^^ ·) (.imm i))

/-- `EOR w` (R135). -/
def execEorAbs (w : Addr) (s : State) : Result := .next (s.logic (· ^^^ ·) (.mem (.abs w)))

/-- `EOR (z),Y` (R135). -/
def execEorIndy (z : Byte) (s : State) : Result := .next (s.logic (· ^^^ ·) (.mem (.indy z)))

/-- `EOR z,X` (R135). -/
def execEorZpx (z : Byte) (s : State) : Result := .next (s.logic (· ^^^ ·) (.mem (.zpx z)))

/-- `EOR w,Y` (R135). -/
def execEorAbsy (w : Addr) (s : State) : Result := .next (s.logic (· ^^^ ·) (.mem (.absy w)))

/-- `EOR w,X` (R135). -/
def execEorAbsx (w : Addr) (s : State) : Result := .next (s.logic (· ^^^ ·) (.mem (.absx w)))

/-- `BIT z` (R136). -/
def execBitZp (z : Byte) (s : State) : Result := .next (s.bitTest (.zp z))

/-- `BIT w` (R136). -/
def execBitAbs (w : Addr) (s : State) : Result := .next (s.bitTest (.abs w))

end Sys2Proof.Machine
end

