-- ==== Sys2Proof/Machine/ShiftRotate.lean ====
section
/-! DEFINITION. Shift and rotate (44_shift_rotate.md): one meaning per instruction, over the shared
operations of Machine/Operands.lean and Machine/Ops.lean. Each runs after the step fetched the opcode and
its operand bytes (R117). -/

namespace Sys2Proof.Machine

/-- `ASL z` (R138). -/
def execAslZp (z : Byte) (s : State) : Result := .next (s.shift shiftAsl (.mem (.zp z)))

/-- `ASL A` (R138). -/
def execAslAcc (s : State) : Result := .next (s.shift shiftAsl .acc)

/-- `ASL w` (R138). -/
def execAslAbs (w : Addr) (s : State) : Result := .next (s.shift shiftAsl (.mem (.abs w)))

/-- `ASL z,X` (R138). -/
def execAslZpx (z : Byte) (s : State) : Result := .next (s.shift shiftAsl (.mem (.zpx z)))

/-- `ASL w,X` (R138). -/
def execAslAbsx (w : Addr) (s : State) : Result := .next (s.shift shiftAsl (.mem (.absx w)))

/-- `LSR z` (R139). -/
def execLsrZp (z : Byte) (s : State) : Result := .next (s.shift shiftLsr (.mem (.zp z)))

/-- `LSR A` (R139). -/
def execLsrAcc (s : State) : Result := .next (s.shift shiftLsr .acc)

/-- `LSR w` (R139). -/
def execLsrAbs (w : Addr) (s : State) : Result := .next (s.shift shiftLsr (.mem (.abs w)))

/-- `LSR z,X` (R139). -/
def execLsrZpx (z : Byte) (s : State) : Result := .next (s.shift shiftLsr (.mem (.zpx z)))

/-- `LSR w,X` (R139). -/
def execLsrAbsx (w : Addr) (s : State) : Result := .next (s.shift shiftLsr (.mem (.absx w)))

/-- `ROL z` (R140). -/
def execRolZp (z : Byte) (s : State) : Result := .next (s.shift shiftRol (.mem (.zp z)))

/-- `ROL A` (R140). -/
def execRolAcc (s : State) : Result := .next (s.shift shiftRol .acc)

/-- `ROL w` (R140). -/
def execRolAbs (w : Addr) (s : State) : Result := .next (s.shift shiftRol (.mem (.abs w)))

/-- `ROL z,X` (R140). -/
def execRolZpx (z : Byte) (s : State) : Result := .next (s.shift shiftRol (.mem (.zpx z)))

/-- `ROL w,X` (R140). -/
def execRolAbsx (w : Addr) (s : State) : Result := .next (s.shift shiftRol (.mem (.absx w)))

/-- `ROR z` (R141). -/
def execRorZp (z : Byte) (s : State) : Result := .next (s.shift shiftRor (.mem (.zp z)))

/-- `ROR A` (R141). -/
def execRorAcc (s : State) : Result := .next (s.shift shiftRor .acc)

/-- `ROR w` (R141). -/
def execRorAbs (w : Addr) (s : State) : Result := .next (s.shift shiftRor (.mem (.abs w)))

/-- `ROR z,X` (R141). -/
def execRorZpx (z : Byte) (s : State) : Result := .next (s.shift shiftRor (.mem (.zpx z)))

/-- `ROR w,X` (R141). -/
def execRorAbsx (w : Addr) (s : State) : Result := .next (s.shift shiftRor (.mem (.absx w)))

end Sys2Proof.Machine
end

