-- ==== Sys2Proof/Machine/StackOps.lean ====
section
/-! DEFINITION. Stack instructions (48_stack.md): one meaning per instruction, over the shared
operations of Machine/Operands.lean and Machine/Ops.lean. Each runs after the step fetched the opcode and
its operand bytes (R117). -/

namespace Sys2Proof.Machine

/-- `PHA` (R173). -/
def execPha (s : State) : Result := .next (s.push8 s.a)

/-- `PLA` (R174). -/
def execPla (s : State) : Result :=
  let v := s.pop8
  .next ((v.2.setA v.1).updateZN v.1)

/-- `PHP` (R175, R38). -/
def execPhp (s : State) : Result := .next (s.push8 (pushedStatus s.p true))

/-- `PLP` (R176, R40). -/
def execPlp (s : State) : Result :=
  let v := s.pop8
  .next (v.2.setP (pulledStatus v.1))

end Sys2Proof.Machine
end

