-- ==== Sys2Proof/Machine/System.lean ====
section
/-! DEFINITION. BRK, RTI and NOP (49_system.md): one meaning per instruction, over the shared
operations of Machine/Operands.lean and Machine/Ops.lean. Each runs after the step fetched the opcode and
its operand bytes (R117). -/

namespace Sys2Proof.Machine

/-- `BRK` (R177): the padding byte is already fetched, so PC is the address of BRK plus 2; the service
sequence with B = 1 through the IRQ vector, and `halted`. Taken whatever I and the latches hold. -/
def execBrk (_p : Byte) (s : State) : Result :=
  .next ((s.serviceSequence Config.irqVector true).setHalted true)

/-- `RTI` (R178). -/
def execRti (s : State) : Result := .next (s.returnFromInterrupt)

/-- `NOP` (R179). -/
def execNop (s : State) : Result := .next s

end Sys2Proof.Machine
end

