-- ==== Sys2Proof/Machine/TransferFlag.lean ====
section
/-! DEFINITION. Transfers and flag instructions (46_transfer_flag.md): one meaning per instruction, over the shared
operations of Machine/Operands.lean and Machine/Ops.lean. Each runs after the step fetched the opcode and
its operand bytes (R117). -/

namespace Sys2Proof.Machine

/-- `TAX` (R148). -/
def execTax (s : State) : Result := .next (s.transfer s.a .x)

/-- `TAY` (R149). -/
def execTay (s : State) : Result := .next (s.transfer s.a .y)

/-- `TXA` (R150). -/
def execTxa (s : State) : Result := .next (s.transfer s.x .a)

/-- `TYA` (R151). -/
def execTya (s : State) : Result := .next (s.transfer s.y .a)

/-- `TSX` (R152). -/
def execTsx (s : State) : Result := .next (s.transfer s.sp .x)

/-- `TXS` (R153): no flag is written. -/
def execTxs (s : State) : Result := .next (s.setSp s.x)

/-- `CLC` (R154). -/
def execClc (s : State) : Result := .next (s.setFlag .c false)

/-- `SEC` (R155). -/
def execSec (s : State) : Result := .next (s.setFlag .c true)

/-- `CLI` (R156). -/
def execCli (s : State) : Result := .next (s.setFlag .i false)

/-- `SEI` (R157). -/
def execSei (s : State) : Result := .next (s.setFlag .i true)

/-- `CLV` (R158). -/
def execClv (s : State) : Result := .next (s.setFlag .v false)

/-- `CLD` (R159). -/
def execCld (s : State) : Result := .next (s.setFlag .d false)

/-- `SED` (R160). -/
def execSed (s : State) : Result := .next (s.setFlag .d true)

end Sys2Proof.Machine
end

