-- ==== Sys2Proof/Machine/Dispatch.lean ====
section
/-! DEFINITION. One arm per constructor of `Instr`, each one call of its meaning (R99). -/

namespace Sys2Proof.Machine

def exec (i : Instr) (s : State) : Host.Outcome State Fault Refusal :=
  match i with
  -- Load and store (41_load_store.md)
  | .ldaIndx z => Sys2Proof.Machine.execLdaIndx z s
  | .ldaZp z => Sys2Proof.Machine.execLdaZp z s
  | .ldaImm imm => Sys2Proof.Machine.execLdaImm imm s
  | .ldaAbs w => Sys2Proof.Machine.execLdaAbs w s
  | .ldaIndy z => Sys2Proof.Machine.execLdaIndy z s
  | .ldaZpx z => Sys2Proof.Machine.execLdaZpx z s
  | .ldaAbsy w => Sys2Proof.Machine.execLdaAbsy w s
  | .ldaAbsx w => Sys2Proof.Machine.execLdaAbsx w s
  | .ldxImm imm => Sys2Proof.Machine.execLdxImm imm s
  | .ldxZp z => Sys2Proof.Machine.execLdxZp z s
  | .ldxAbs w => Sys2Proof.Machine.execLdxAbs w s
  | .ldxZpy z => Sys2Proof.Machine.execLdxZpy z s
  | .ldxAbsy w => Sys2Proof.Machine.execLdxAbsy w s
  | .ldyImm imm => Sys2Proof.Machine.execLdyImm imm s
  | .ldyZp z => Sys2Proof.Machine.execLdyZp z s
  | .ldyAbs w => Sys2Proof.Machine.execLdyAbs w s
  | .ldyZpx z => Sys2Proof.Machine.execLdyZpx z s
  | .ldyAbsx w => Sys2Proof.Machine.execLdyAbsx w s
  | .staIndx z => Sys2Proof.Machine.execStaIndx z s
  | .staZp z => Sys2Proof.Machine.execStaZp z s
  | .staAbs w => Sys2Proof.Machine.execStaAbs w s
  | .staIndy z => Sys2Proof.Machine.execStaIndy z s
  | .staZpx z => Sys2Proof.Machine.execStaZpx z s
  | .staAbsy w => Sys2Proof.Machine.execStaAbsy w s
  | .staAbsx w => Sys2Proof.Machine.execStaAbsx w s
  | .stxZp z => Sys2Proof.Machine.execStxZp z s
  | .stxAbs w => Sys2Proof.Machine.execStxAbs w s
  | .stxZpy z => Sys2Proof.Machine.execStxZpy z s
  | .styZp z => Sys2Proof.Machine.execStyZp z s
  | .styAbs w => Sys2Proof.Machine.execStyAbs w s
  | .styZpx z => Sys2Proof.Machine.execStyZpx z s
  -- Arithmetic and compare (42_arithmetic.md)
  | .adcIndx z => Sys2Proof.Machine.execAdcIndx z s
  | .adcZp z => Sys2Proof.Machine.execAdcZp z s
  | .adcImm imm => Sys2Proof.Machine.execAdcImm imm s
  | .adcAbs w => Sys2Proof.Machine.execAdcAbs w s
  | .adcIndy z => Sys2Proof.Machine.execAdcIndy z s
  | .adcZpx z => Sys2Proof.Machine.execAdcZpx z s
  | .adcAbsy w => Sys2Proof.Machine.execAdcAbsy w s
  | .adcAbsx w => Sys2Proof.Machine.execAdcAbsx w s
  | .sbcIndx z => Sys2Proof.Machine.execSbcIndx z s
  | .sbcZp z => Sys2Proof.Machine.execSbcZp z s
  | .sbcImm imm => Sys2Proof.Machine.execSbcImm imm s
  | .sbcAbs w => Sys2Proof.Machine.execSbcAbs w s
  | .sbcIndy z => Sys2Proof.Machine.execSbcIndy z s
  | .sbcZpx z => Sys2Proof.Machine.execSbcZpx z s
  | .sbcAbsy w => Sys2Proof.Machine.execSbcAbsy w s
  | .sbcAbsx w => Sys2Proof.Machine.execSbcAbsx w s
  | .cmpIndx z => Sys2Proof.Machine.execCmpIndx z s
  | .cmpZp z => Sys2Proof.Machine.execCmpZp z s
  | .cmpImm imm => Sys2Proof.Machine.execCmpImm imm s
  | .cmpAbs w => Sys2Proof.Machine.execCmpAbs w s
  | .cmpIndy z => Sys2Proof.Machine.execCmpIndy z s
  | .cmpZpx z => Sys2Proof.Machine.execCmpZpx z s
  | .cmpAbsy w => Sys2Proof.Machine.execCmpAbsy w s
  | .cmpAbsx w => Sys2Proof.Machine.execCmpAbsx w s
  | .cpxImm imm => Sys2Proof.Machine.execCpxImm imm s
  | .cpxZp z => Sys2Proof.Machine.execCpxZp z s
  | .cpxAbs w => Sys2Proof.Machine.execCpxAbs w s
  | .cpyImm imm => Sys2Proof.Machine.execCpyImm imm s
  | .cpyZp z => Sys2Proof.Machine.execCpyZp z s
  | .cpyAbs w => Sys2Proof.Machine.execCpyAbs w s
  -- Logic and bit test (43_logic.md)
  | .andIndx z => Sys2Proof.Machine.execAndIndx z s
  | .andZp z => Sys2Proof.Machine.execAndZp z s
  | .andImm imm => Sys2Proof.Machine.execAndImm imm s
  | .andAbs w => Sys2Proof.Machine.execAndAbs w s
  | .andIndy z => Sys2Proof.Machine.execAndIndy z s
  | .andZpx z => Sys2Proof.Machine.execAndZpx z s
  | .andAbsy w => Sys2Proof.Machine.execAndAbsy w s
  | .andAbsx w => Sys2Proof.Machine.execAndAbsx w s
  | .oraIndx z => Sys2Proof.Machine.execOraIndx z s
  | .oraZp z => Sys2Proof.Machine.execOraZp z s
  | .oraImm imm => Sys2Proof.Machine.execOraImm imm s
  | .oraAbs w => Sys2Proof.Machine.execOraAbs w s
  | .oraIndy z => Sys2Proof.Machine.execOraIndy z s
  | .oraZpx z => Sys2Proof.Machine.execOraZpx z s
  | .oraAbsy w => Sys2Proof.Machine.execOraAbsy w s
  | .oraAbsx w => Sys2Proof.Machine.execOraAbsx w s
  | .eorIndx z => Sys2Proof.Machine.execEorIndx z s
  | .eorZp z => Sys2Proof.Machine.execEorZp z s
  | .eorImm imm => Sys2Proof.Machine.execEorImm imm s
  | .eorAbs w => Sys2Proof.Machine.execEorAbs w s
  | .eorIndy z => Sys2Proof.Machine.execEorIndy z s
  | .eorZpx z => Sys2Proof.Machine.execEorZpx z s
  | .eorAbsy w => Sys2Proof.Machine.execEorAbsy w s
  | .eorAbsx w => Sys2Proof.Machine.execEorAbsx w s
  | .bitZp z => Sys2Proof.Machine.execBitZp z s
  | .bitAbs w => Sys2Proof.Machine.execBitAbs w s
  -- Shift and rotate (44_shift_rotate.md)
  | .aslZp z => Sys2Proof.Machine.execAslZp z s
  | .aslAcc => Sys2Proof.Machine.execAslAcc s
  | .aslAbs w => Sys2Proof.Machine.execAslAbs w s
  | .aslZpx z => Sys2Proof.Machine.execAslZpx z s
  | .aslAbsx w => Sys2Proof.Machine.execAslAbsx w s
  | .lsrZp z => Sys2Proof.Machine.execLsrZp z s
  | .lsrAcc => Sys2Proof.Machine.execLsrAcc s
  | .lsrAbs w => Sys2Proof.Machine.execLsrAbs w s
  | .lsrZpx z => Sys2Proof.Machine.execLsrZpx z s
  | .lsrAbsx w => Sys2Proof.Machine.execLsrAbsx w s
  | .rolZp z => Sys2Proof.Machine.execRolZp z s
  | .rolAcc => Sys2Proof.Machine.execRolAcc s
  | .rolAbs w => Sys2Proof.Machine.execRolAbs w s
  | .rolZpx z => Sys2Proof.Machine.execRolZpx z s
  | .rolAbsx w => Sys2Proof.Machine.execRolAbsx w s
  | .rorZp z => Sys2Proof.Machine.execRorZp z s
  | .rorAcc => Sys2Proof.Machine.execRorAcc s
  | .rorAbs w => Sys2Proof.Machine.execRorAbs w s
  | .rorZpx z => Sys2Proof.Machine.execRorZpx z s
  | .rorAbsx w => Sys2Proof.Machine.execRorAbsx w s
  -- Increment and decrement (45_inc_dec.md)
  | .incZp z => Sys2Proof.Machine.execIncZp z s
  | .incAbs w => Sys2Proof.Machine.execIncAbs w s
  | .incZpx z => Sys2Proof.Machine.execIncZpx z s
  | .incAbsx w => Sys2Proof.Machine.execIncAbsx w s
  | .decZp z => Sys2Proof.Machine.execDecZp z s
  | .decAbs w => Sys2Proof.Machine.execDecAbs w s
  | .decZpx z => Sys2Proof.Machine.execDecZpx z s
  | .decAbsx w => Sys2Proof.Machine.execDecAbsx w s
  | .inx => Sys2Proof.Machine.execInx s
  | .iny => Sys2Proof.Machine.execIny s
  | .dex => Sys2Proof.Machine.execDex s
  | .dey => Sys2Proof.Machine.execDey s
  -- Transfers and flag instructions (46_transfer_flag.md)
  | .tax => Sys2Proof.Machine.execTax s
  | .tay => Sys2Proof.Machine.execTay s
  | .txa => Sys2Proof.Machine.execTxa s
  | .tya => Sys2Proof.Machine.execTya s
  | .tsx => Sys2Proof.Machine.execTsx s
  | .txs => Sys2Proof.Machine.execTxs s
  | .clc => Sys2Proof.Machine.execClc s
  | .sec => Sys2Proof.Machine.execSec s
  | .cli => Sys2Proof.Machine.execCli s
  | .sei => Sys2Proof.Machine.execSei s
  | .clv => Sys2Proof.Machine.execClv s
  | .cld => Sys2Proof.Machine.execCld s
  | .sed => Sys2Proof.Machine.execSed s
  -- Branches, jumps and subroutines (47_branch_jump.md)
  | .bcc r => Sys2Proof.Machine.execBcc r s
  | .bcs r => Sys2Proof.Machine.execBcs r s
  | .beq r => Sys2Proof.Machine.execBeq r s
  | .bne r => Sys2Proof.Machine.execBne r s
  | .bmi r => Sys2Proof.Machine.execBmi r s
  | .bpl r => Sys2Proof.Machine.execBpl r s
  | .bvc r => Sys2Proof.Machine.execBvc r s
  | .bvs r => Sys2Proof.Machine.execBvs r s
  | .jmpAbs w => Sys2Proof.Machine.execJmpAbs w s
  | .jmpInd w => Sys2Proof.Machine.execJmpInd w s
  | .jsr w => Sys2Proof.Machine.execJsr w s
  | .rts => Sys2Proof.Machine.execRts s
  -- Stack instructions (48_stack.md)
  | .pha => Sys2Proof.Machine.execPha s
  | .pla => Sys2Proof.Machine.execPla s
  | .php => Sys2Proof.Machine.execPhp s
  | .plp => Sys2Proof.Machine.execPlp s
  -- BRK, RTI and NOP (49_system.md)
  | .brk p => Sys2Proof.Machine.execBrk p s
  | .rti => Sys2Proof.Machine.execRti s
  | .nop => Sys2Proof.Machine.execNop s

end Sys2Proof.Machine
end

