-- ==== Sys2Proof/Machine/Fetch.lean ====
section
/-! DEFINITION. What a step does around an instruction's meaning (R95): the head, the fetch of the
instruction's bytes, the cycle count; and placing an instruction where the next fetch reads it. -/

namespace Sys2Proof.Machine

/-- The head of a step: the indicators of the last instruction cleared, then the interrupt service (R95,
R182; notes/assumptions/6.md). -/
def State.beginStep (s : State) : State :=
  ((s.setPageCross false).setTaken false).serviceInterrupts

/-- What the fetch of an instruction finds. -/
inductive Fetched where
  | instr (i : Instr) (s : State)
  | notImplemented (op : Byte) (s : State)
  deriving DecidableEq, Repr

/-- Operand bytes 1 and 2, as many of them as the opcode takes, in address order through the bus (R93, R94). -/
def State.fetchOperands (n : Nat) (s : State) : (Byte × Byte) × State :=
  match n with
  | 0 => ((0#8, 0#8), s)
  | 1 =>
    let b1 := s.fetch8
    ((b1.1, 0#8), b1.2)
  | _ =>
    let b1 := s.fetch8
    let b2 := b1.2.fetch8
    ((b1.1, b2.1), b2.2)

/-- The opcode fetch and, where the opcode is implemented, its operand bytes (R83, R95). Nothing but the
opcode is fetched where it is not (R187, R191). -/
def State.fetchInstr (s : State) : Fetched :=
  let op := s.fetch8
  match opcodeOperandBytes op.1 with
  | none => .notImplemented op.1 op.2
  | some n =>
    let bs := op.2.fetchOperands n
    match decodeOp op.1 bs.1.1 bs.1.2 with
    | none => .notImplemented op.1 bs.2
    | some i => .instr i bs.2

/-- The end of a completed step: `cycles` advances by the step's draw of the OPEN cost, modulo 2^64 (R42,
R95, D10). -/
def State.chargeCycles (serviced : Bool) (i : Instr) (s : State) : State :=
  let cost := Config.cycleCost s.draws (opcodeOf i) i.mode s.pageCross s.taken serviced
  (s.setCycles (s.cycles + BitVec.ofNat 64 cost)).setDraws (s.draws + 1)

/-- A step's end: only a completed instruction is charged (R191, D16). -/
def endStep (serviced : Bool) (i : Instr) (r : Result) : Result :=
  match r with
  | .next s => .next (s.chargeCycles serviced i)
  | .fault f => .fault f
  | .refused f => .refused f

/-! ### Placing an instruction -/

/-- The byte `v` put where a bus read of `addr` finds it: in memory, or at the keyboard cursor for IO_KBD,
where a read takes the next keyboard byte (R56, R57). -/
def State.placeByte (addr : Addr) (v : Byte) (s : State) : State :=
  if addr = Config.ioKbd then
    let read := s.kbdBuf.take s.kbdCur
    (s.setKbdBuf (read ++ v :: s.kbdBuf.drop s.kbdCur)).setKbdCur read.length
  else s.poke addr v

/-- Bytes placed at consecutive addresses, modulo 65536 (R81). -/
def State.placeBytes (addr : Addr) (bytes : List Byte) (s : State) : State :=
  match bytes with
  | [] => s
  | v :: rest => (s.placeByte addr v).placeBytes (addr + 1#16) rest

/-- The latches that would make the next step service an interrupt first, cleared. -/
def State.withoutDueInterrupt (s : State) : State :=
  if s.interruptDue then (s.setNmiPending false).setIrqPending (s.irqPending && s.flag .i) else s

end Sys2Proof.Machine
end

