-- ==== Sys2Proof/Machine/Step.lean ====
section
/-! DEFINITION. One step of the core (R95, R97). -/

namespace Sys2Proof.Machine

/-- One step (R95): service interrupts, fetch, execute, count. It does not read `halted` (R98). -/
def step (s : State) : Host.Outcome State Fault Refusal :=
  match s.beginStep.fetchInstr with
  | .notImplemented op t => .fault (.opcodeNotImplemented op t)
  | .instr i t => endStep s.interruptDue i (exec i t)

/-- `s` with the instruction whose bits are `w` (numbered as opcode_table.json numbers them, the bits above
`nbits` zero) where the next step fetches: at PC, with no interrupt due before it
(notes/assumptions/14.md). -/
def State.withFetchWord (s : State) (nbits w : Nat) : State :=
  s.withoutDueInterrupt.placeBytes s.pc (tableBytes nbits w)

end Sys2Proof.Machine
end

