-- ==== Sys2Proof/Machine/HostOps.lean ====
section
/-! DEFINITION. The host interface (60_exceptions.md R199 to R202, 20_memory.md R61 and R62,
70_reset_and_hazards.md R205 and R206): what the host may do between two steps. `step` is Machine/Step.lean;
`peek` and `poke` are Machine/Ops.lean. -/

namespace Sys2Proof.Machine

/-- Why a host operation fails; a failed one changes nothing (R192, D17 to D19). -/
inductive HostError where
  /-- `load_rom` after a successful `load_rom` (R62). -/
  | romAlreadyLoaded
  /-- `load_rom` of no bytes, or past the end of memory (R62). -/
  | romTooBig
  /-- `run` of no steps (R200). -/
  | zeroBudget
  /-- `send_keys` of no bytes (R201). -/
  | emptyInput
  deriving DecidableEq, Repr

/-- What a host operation that can fail answers. -/
inductive HostResult where
  | done (s : State)
  | failed (e : HostError)
  deriving DecidableEq, Repr

/-- How a `run` ends (R200, R203). -/
inductive RunResult where
  /-- `run` returned after emitting `ProgramHalted`. -/
  | done (s : State)
  /-- `run` failed without a step. -/
  | failed (e : HostError)
  /-- A step faulted. -/
  | fault (f : Fault)
  /-- A step refused; none does. -/
  | refused (r : Refusal)
  deriving DecidableEq, Repr

/-! ### Power-on and reset -/

/-- `new()` (R205): zeroed RAM, PC the word at 0xFFFC of it; the other values are D12's. -/
def powerOn : State where
  a := 0#8
  x := 0#8
  y := 0#8
  sp := 0xFD#8
  p := 0x04#8
  pc := 0x0000#16
  cycles := 0#64
  irqPending := false
  nmiPending := false
  halted := false
  romLoaded := false
  kbdBuf := []
  kbdCur := 0
  events := []
  mem := []
  pageCross := false
  taken := false
  draws := 0

/-- `boot()` (R206). -/
def State.boot (s : State) : State :=
  let regs := (((s.setA 0#8).setX 0#8).setY 0#8).setSp Config.resetSp
  let status := regs.setP Config.resetP
  let target := status.read16 Config.resetVector
  let latches := ((target.2.setPc target.1).setHalted false).setIrqPending false
  ((latches.setNmiPending false).setCycles 0#64).setKbdCur 0

/-! ### Memory -/

/-- The copy of `load_rom`: past the I/O behaviour (R62, D19). -/
def State.copyBytes (addr : Nat) (bytes : List Byte) (s : State) : State :=
  match bytes with
  | [] => s
  | v :: rest => (s.setMem (s.mem.write addr v)).copyBytes (addr + 1) rest

/-- `load_rom(bytes, base)` (R62). -/
def State.loadRom (bytes : List Byte) (base : Addr) (s : State) : HostResult :=
  if s.romLoaded then .failed .romAlreadyLoaded
  else if bytes.length = 0 ∨ base.toNat + bytes.length > Config.memorySize then .failed .romTooBig
  else .done ((s.copyBytes base.toNat bytes).setRomLoaded true)

/-! ### Inputs -/

/-- `trigger_irq()` (R181). -/
def State.triggerIrq (s : State) : State := s.setIrqPending true

/-- `trigger_nmi()` (R181). -/
def State.triggerNmi (s : State) : State := s.setNmiPending true

/-- `send_keys(bytes)` (R201). -/
def State.sendKeys (bytes : List Byte) (s : State) : HostResult :=
  if bytes = [] then .failed .emptyInput else .done (s.setKbdBuf (s.kbdBuf ++ bytes))

/-! ### Running -/

/-- The loop of `run` (R200): at most `fuel` more steps, `n` taken so far. -/
def runLoop (fuel n : Nat) (s : State) : RunResult :=
  match fuel with
  | 0 => .done (s.emit (.programHalted (BitVec.ofNat 64 n)))
  | fuel + 1 =>
    if s.halted then .done (s.emit (.programHalted (BitVec.ofNat 64 n)))
    else
      match step s with
      | .next t => runLoop fuel (n + 1) t
      | .fault f => .fault f
      | .refused r => .refused r

/-- `run(max_steps)` (R200). -/
def State.run (maxSteps : BitVec 64) (s : State) : RunResult :=
  if maxSteps = 0#64 then .failed .zeroBudget else runLoop maxSteps.toNat 0 s

/-! ### Accessors and setters -/

/-- The accessors' tuple (A, X, Y, SP, PC, P, cycles) (R199, R202). -/
def State.registers (s : State) : Byte × Byte × Byte × Byte × Addr × Byte × BitVec 64 :=
  (s.a, s.x, s.y, s.sp, s.pc, s.p, s.cycles)

/-- The host's direct setters store the given value exactly (R202, D25); a flag is set by `set_flag` (R27). -/
inductive HostSet where
  | a (v : Byte)
  | x (v : Byte)
  | y (v : Byte)
  | sp (v : Byte)
  | pc (v : Addr)
  | p (v : Byte)
  | cycles (v : BitVec 64)
  | flag (f : Flag) (b : Bool)
  /-- The host may clear `halted`, not set it (R202, 90_conflicts.md C8). -/
  | clearHalted
  deriving DecidableEq, Repr

/-- What a setter does (R202). -/
def State.hostSet (h : HostSet) (s : State) : State :=
  match h with
  | .a v => s.setA v
  | .x v => s.setX v
  | .y v => s.setY v
  | .sp v => s.setSp v
  | .pc v => s.setPc v
  | .p v => s.setP v
  | .cycles v => s.setCycles v
  | .flag f b => s.setFlag f b
  | .clearHalted => s.setHalted false

end Sys2Proof.Machine
end

