-- ==== Sys2Proof/Safety.lean ====
section
/-! DEFINITION. What counts as a sound state and a safe run, in the terms the claims use. -/

namespace Sys2Proof.Machine

/-- The invariant of the machine: memory in its canonical form (R51, R54), and the keyboard cursor inside
the buffer (R47). -/
abbrev State.Inv (s : State) : Prop := s.mem.wf ∧ s.kbdCur ≤ s.kbdBuf.length

/-- `n` steps from `s` reach `t` without a fault (R192, R203). -/
def RunsTo (n : Nat) (s t : State) : Prop := Host.Core.run core n s = .next t

/-- `n` steps from `s` end in no fault. -/
def SafeFor (n : Nat) (s : State) : Prop := ∃ t, RunsTo n s t

end Sys2Proof.Machine
end

