-- ==== Sys2Proof/Certificates/Slice0/Obligations.lean ====
section
/-! DEFINITION. The statements for the provers. Each says which rules of spec/ it formalises.

How they are said. The forms of an instruction are a table (`loadForms`, …) with the bytes of each form
written from R81 and opcode_table.json, the instruction, and what the rule needs to know of the form; a
statement about an instruction holds for every form of its table, at every operand byte `z` and word `w`,
in every state. Operand values are said by R56 and R57 (`busValue`), not by the model's bus; effective
addresses by `effAddr`, which `EffectiveAddressesFollowTheFormulas` pins down by the spec's formulas.

Two clauses of the frames speak of fields that are the model's choice and rest on no rule cited: that the
indicators stand in State (notes/assumptions/6.md), and `draws` (notes/assumptions/3.md). -/

namespace Sys2Proof.Machine

/-! ### The words of the statements -/

/-- A form of an instruction: its bytes in address order, the instruction, and what its rule speaks of. -/
structure Form (α : Type) where
  bytes : List Byte
  instr : Instr
  how : α

/-- What a bus read at `a` returns (R56, R57). -/
def busValue (s : State) (a : Addr) : Byte :=
  if a = 0xF000#16 then s.kbdBuf.getD s.kbdCur 0#8 else s.peek a

/-- Where the keyboard cursor is after a bus read at `a` (R57). -/
def cursorAfter (s : State) (a : Addr) : Nat :=
  if a = 0xF000#16 ∧ s.kbdCur < s.kbdBuf.length then s.kbdCur + 1 else s.kbdCur

/-- The operand M of a read-class instruction (R115). -/
def operandValue (s : State) : Source → Byte
  | .imm i => i
  | .mem m => busValue s (s.effAddr m).1.addr

/-- The keyboard cursor after the operand read: only a read at 0xF000 moves it (R69). -/
def cursorAfterOperand (s : State) : Source → Nat
  | .imm _ => s.kbdCur
  | .mem m => cursorAfter s (s.effAddr m).1.addr

/-- The little-endian word at an address (R65). -/
def wordAt (s : State) (a : Addr) : Nat := (s.peek a).toNat + 256 * (s.peek (a + 1#16)).toNat

/-- Z and N describe `v` (R28). -/
def ZNOf (t : State) (v : Byte) : Prop := t.flag .z = decide (v = 0#8) ∧ t.flag .n = decide (128 ≤ v.toNat)

/-- A signed result that does not fit a byte (R124, R126). -/
def signedOverflow (x : Int) : Bool := decide (x < -128 ∨ 127 < x)

/-- The flags outside the list are as before. -/
def SameFlagsBut (but : List Flag) (s t : State) : Prop := ∀ f, f ∉ but → t.flag f = s.flag f

/-- The registers of the file outside the list are as before. -/
def SameRegsBut (but : List Reg) (s t : State) : Prop := ∀ r, r ∉ but → t.getReg r = s.getReg r

/-- Every byte of memory reads as before. -/
def SameMemory (s t : State) : Prop := ∀ a, t.peek a = s.peek a

/-- What no instruction but BRK writes: the latches, `halted`, `rom_loaded`, the keyboard buffer, and the
counters, which the step charges (`draws` is the model's own field, notes/assumptions/3.md). -/
def SameHost (s t : State) : Prop :=
  t.irqPending = s.irqPending ∧ t.nmiPending = s.nmiPending ∧ t.halted = s.halted ∧
  t.romLoaded = s.romLoaded ∧ t.kbdBuf = s.kbdBuf ∧ t.cycles = s.cycles ∧ t.draws = s.draws

/-- The two indicators of the step (R100, R95) hold these values; that they stand in State is the model's
choice (notes/assumptions/6.md). -/
def Indicators (cross taken : Bool) (t : State) : Prop := t.pageCross = cross ∧ t.taken = taken

/-- No bus access has left a trace: memory, the events, the keyboard cursor and the indicators are as
before, and so is what `SameHost` lists. -/
def Quiet (s t : State) : Prop :=
  SameMemory s t ∧ t.events = s.events ∧ t.kbdCur = s.kbdCur ∧ SameHost s t ∧
  Indicators s.pageCross s.taken t

/-- The page-cross indicator an operand read leaves (R100); an immediate operand needs no address. -/
def crossAfterOperand (s : State) : Source → Bool
  | .imm _ => s.pageCross
  | .mem m => (s.effAddr m).1.cross

/-- Beside registers and flags, only the operand read has left a trace: nothing is stored, no event, the
cursor and the page-cross indicator as the read leaves them, SP and PC as before. -/
def OnlyReads (src : Source) (s t : State) : Prop :=
  t.sp = s.sp ∧ t.pc = s.pc ∧ SameMemory s t ∧ t.events = s.events ∧
  t.kbdCur = cursorAfterOperand s src ∧ SameHost s t ∧
  Indicators (crossAfterOperand s src) s.taken t

/-- One bus write of `v` at `ea` and no other byte changed (R58 to R60): stored there (at 0xF000 as the OPEN
parameter says), an event for 0xF001. Reading back needs memory in its canonical form. -/
def StoresByte (ea : Addr) (v : Byte) (s t : State) : Prop :=
  (∀ a, a ≠ ea → t.peek a = s.peek a) ∧
  (s.mem.wf → t.peek ea = if ea = 0xF000#16 ∧ Config.kbdWriteStores = false then s.peek ea else v) ∧
  t.events = s.events ++ (if ea = 0xF001#16 then [.charOut v] else [])

/-- Stores to the stack page only: the bytes of `vs` at SP, SP - 1, … (R71), and no other byte changed. -/
def PushesBytes (vs : List Byte) (s t : State) : Prop :=
  t.sp = s.sp - BitVec.ofNat 8 vs.length ∧
  (∀ a, (∀ k < vs.length, a ≠ stackAddr (s.sp - BitVec.ofNat 8 k)) → t.peek a = s.peek a) ∧
  (s.mem.wf → ∀ k < vs.length, t.peek (stackAddr (s.sp - BitVec.ofNat 8 k)) = vs.getD k 0#8) ∧
  t.events = s.events ∧ t.kbdCur = s.kbdCur ∧ Indicators s.pageCross s.taken t

/-- The operations of R133 to R135 on one bit. -/
inductive LogicOp where
  | and | ora | eor
  deriving DecidableEq, Repr

/-- The bit of A from the old bit of A and the bit of M. -/
def LogicOp.onBit : LogicOp → Bool → Bool → Bool
  | .and => Bool.and
  | .ora => Bool.or
  | .eor => Bool.xor

/-- The four shifts of R138 to R141. -/
inductive ShiftOp where
  | asl | lsr | rol | ror
  deriving DecidableEq, Repr

/-- The result of a shift as a number, from the old C and the operand. -/
def ShiftOp.result (o : ShiftOp) (c : Bool) (v : Byte) : Nat :=
  match o with
  | .asl => 2 * v.toNat % 256
  | .lsr => v.toNat / 2
  | .rol => (2 * v.toNat + c.toNat) % 256
  | .ror => v.toNat / 2 + 128 * c.toNat

/-- The bit shifted out. -/
def ShiftOp.carryOut (o : ShiftOp) (v : Byte) : Bool :=
  match o with
  | .asl | .rol => decide (128 ≤ v.toNat)
  | .lsr | .ror => decide (v.toNat % 2 = 1)

/-- Where the keyboard cursor is after the fetch of `n` bytes at PC: one of them may lie at 0xF000 (R79). -/
def cursorAfterFetch (s : State) (n : Nat) : Nat :=
  if (∃ k < n, s.pc + BitVec.ofNat 16 k = 0xF000#16) ∧ s.kbdCur < s.kbdBuf.length then s.kbdCur + 1
  else s.kbdCur

/-- What `n` bus reads at 0xF000, one after the other, return. -/
def keysRead : Nat → State → List Byte
  | 0, _ => []
  | n + 1, s => (s.read8 0xF000#16).1 :: keysRead n (s.read8 0xF000#16).2

/-- None of the first `n` states of the run from `s` is halted. -/
def NotHaltedBefore (n : Nat) (s : State) : Prop := ∀ k < n, ∀ v, RunsTo k s v → v.halted = false

/-- The three bytes a fetch at PC can take, as the bus gives them. -/
def codeAt (s : State) : List Byte :=
  [busValue s s.pc, busValue s (s.pc + 1#16), busValue s (s.pc + 2#16)]

/-! ### The forms -/

/-- LDA, LDX, LDY (R118 to R120): the bytes, the instruction, the register loaded and the operand. -/
def loadForms (z : Byte) (w : Addr) : List (Form (Reg × Source)) :=
  [⟨[0xA1, z], .ldaIndx z, .a, .mem (.indx z)⟩,
   ⟨[0xA5, z], .ldaZp z, .a, .mem (.zp z)⟩,
   ⟨[0xA9, z], .ldaImm z, .a, .imm z⟩,
   ⟨[0xAD, loByte w, hiByte w], .ldaAbs w, .a, .mem (.abs w)⟩,
   ⟨[0xB1, z], .ldaIndy z, .a, .mem (.indy z)⟩,
   ⟨[0xB5, z], .ldaZpx z, .a, .mem (.zpx z)⟩,
   ⟨[0xB9, loByte w, hiByte w], .ldaAbsy w, .a, .mem (.absy w)⟩,
   ⟨[0xBD, loByte w, hiByte w], .ldaAbsx w, .a, .mem (.absx w)⟩,
   ⟨[0xA2, z], .ldxImm z, .x, .imm z⟩,
   ⟨[0xA6, z], .ldxZp z, .x, .mem (.zp z)⟩,
   ⟨[0xAE, loByte w, hiByte w], .ldxAbs w, .x, .mem (.abs w)⟩,
   ⟨[0xB6, z], .ldxZpy z, .x, .mem (.zpy z)⟩] ++
  [⟨[0xBE, loByte w, hiByte w], .ldxAbsy w, .x, .mem (.absy w)⟩,
   ⟨[0xA0, z], .ldyImm z, .y, .imm z⟩,
   ⟨[0xA4, z], .ldyZp z, .y, .mem (.zp z)⟩,
   ⟨[0xAC, loByte w, hiByte w], .ldyAbs w, .y, .mem (.abs w)⟩,
   ⟨[0xB4, z], .ldyZpx z, .y, .mem (.zpx z)⟩,
   ⟨[0xBC, loByte w, hiByte w], .ldyAbsx w, .y, .mem (.absx w)⟩]

/-- STA, STX, STY (R121 to R123): the register stored and the mode. -/
def storeForms (z : Byte) (w : Addr) : List (Form (Reg × MemMode)) :=
  [⟨[0x81, z], .staIndx z, .a, .indx z⟩,
   ⟨[0x85, z], .staZp z, .a, .zp z⟩,
   ⟨[0x8D, loByte w, hiByte w], .staAbs w, .a, .abs w⟩,
   ⟨[0x91, z], .staIndy z, .a, .indy z⟩,
   ⟨[0x95, z], .staZpx z, .a, .zpx z⟩,
   ⟨[0x99, loByte w, hiByte w], .staAbsy w, .a, .absy w⟩,
   ⟨[0x9D, loByte w, hiByte w], .staAbsx w, .a, .absx w⟩,
   ⟨[0x86, z], .stxZp z, .x, .zp z⟩,
   ⟨[0x8E, loByte w, hiByte w], .stxAbs w, .x, .abs w⟩,
   ⟨[0x96, z], .stxZpy z, .x, .zpy z⟩,
   ⟨[0x84, z], .styZp z, .y, .zp z⟩,
   ⟨[0x8C, loByte w, hiByte w], .styAbs w, .y, .abs w⟩] ++
  [⟨[0x94, z], .styZpx z, .y, .zpx z⟩]

/-- ADC (R128). -/
def adcForms (z : Byte) (w : Addr) : List (Form (Source)) :=
  [⟨[0x61, z], .adcIndx z, .mem (.indx z)⟩,
   ⟨[0x65, z], .adcZp z, .mem (.zp z)⟩,
   ⟨[0x69, z], .adcImm z, .imm z⟩,
   ⟨[0x6D, loByte w, hiByte w], .adcAbs w, .mem (.abs w)⟩,
   ⟨[0x71, z], .adcIndy z, .mem (.indy z)⟩,
   ⟨[0x75, z], .adcZpx z, .mem (.zpx z)⟩,
   ⟨[0x79, loByte w, hiByte w], .adcAbsy w, .mem (.absy w)⟩,
   ⟨[0x7D, loByte w, hiByte w], .adcAbsx w, .mem (.absx w)⟩]

/-- SBC (R129). -/
def sbcForms (z : Byte) (w : Addr) : List (Form (Source)) :=
  [⟨[0xE1, z], .sbcIndx z, .mem (.indx z)⟩,
   ⟨[0xE5, z], .sbcZp z, .mem (.zp z)⟩,
   ⟨[0xE9, z], .sbcImm z, .imm z⟩,
   ⟨[0xED, loByte w, hiByte w], .sbcAbs w, .mem (.abs w)⟩,
   ⟨[0xF1, z], .sbcIndy z, .mem (.indy z)⟩,
   ⟨[0xF5, z], .sbcZpx z, .mem (.zpx z)⟩,
   ⟨[0xF9, loByte w, hiByte w], .sbcAbsy w, .mem (.absy w)⟩,
   ⟨[0xFD, loByte w, hiByte w], .sbcAbsx w, .mem (.absx w)⟩]

/-- CMP, CPX, CPY (R130 to R132). -/
def compareForms (z : Byte) (w : Addr) : List (Form (Reg × Source)) :=
  [⟨[0xC1, z], .cmpIndx z, .a, .mem (.indx z)⟩,
   ⟨[0xC5, z], .cmpZp z, .a, .mem (.zp z)⟩,
   ⟨[0xC9, z], .cmpImm z, .a, .imm z⟩,
   ⟨[0xCD, loByte w, hiByte w], .cmpAbs w, .a, .mem (.abs w)⟩,
   ⟨[0xD1, z], .cmpIndy z, .a, .mem (.indy z)⟩,
   ⟨[0xD5, z], .cmpZpx z, .a, .mem (.zpx z)⟩,
   ⟨[0xD9, loByte w, hiByte w], .cmpAbsy w, .a, .mem (.absy w)⟩,
   ⟨[0xDD, loByte w, hiByte w], .cmpAbsx w, .a, .mem (.absx w)⟩,
   ⟨[0xE0, z], .cpxImm z, .x, .imm z⟩,
   ⟨[0xE4, z], .cpxZp z, .x, .mem (.zp z)⟩,
   ⟨[0xEC, loByte w, hiByte w], .cpxAbs w, .x, .mem (.abs w)⟩,
   ⟨[0xC0, z], .cpyImm z, .y, .imm z⟩] ++
  [⟨[0xC4, z], .cpyZp z, .y, .mem (.zp z)⟩,
   ⟨[0xCC, loByte w, hiByte w], .cpyAbs w, .y, .mem (.abs w)⟩]

/-- AND, ORA, EOR (R133 to R135). -/
def logicForms (z : Byte) (w : Addr) : List (Form (LogicOp × Source)) :=
  [⟨[0x21, z], .andIndx z, .and, .mem (.indx z)⟩,
   ⟨[0x25, z], .andZp z, .and, .mem (.zp z)⟩,
   ⟨[0x29, z], .andImm z, .and, .imm z⟩,
   ⟨[0x2D, loByte w, hiByte w], .andAbs w, .and, .mem (.abs w)⟩,
   ⟨[0x31, z], .andIndy z, .and, .mem (.indy z)⟩,
   ⟨[0x35, z], .andZpx z, .and, .mem (.zpx z)⟩,
   ⟨[0x39, loByte w, hiByte w], .andAbsy w, .and, .mem (.absy w)⟩,
   ⟨[0x3D, loByte w, hiByte w], .andAbsx w, .and, .mem (.absx w)⟩,
   ⟨[0x01, z], .oraIndx z, .ora, .mem (.indx z)⟩,
   ⟨[0x05, z], .oraZp z, .ora, .mem (.zp z)⟩,
   ⟨[0x09, z], .oraImm z, .ora, .imm z⟩,
   ⟨[0x0D, loByte w, hiByte w], .oraAbs w, .ora, .mem (.abs w)⟩] ++
  [⟨[0x11, z], .oraIndy z, .ora, .mem (.indy z)⟩,
   ⟨[0x15, z], .oraZpx z, .ora, .mem (.zpx z)⟩,
   ⟨[0x19, loByte w, hiByte w], .oraAbsy w, .ora, .mem (.absy w)⟩,
   ⟨[0x1D, loByte w, hiByte w], .oraAbsx w, .ora, .mem (.absx w)⟩,
   ⟨[0x41, z], .eorIndx z, .eor, .mem (.indx z)⟩,
   ⟨[0x45, z], .eorZp z, .eor, .mem (.zp z)⟩,
   ⟨[0x49, z], .eorImm z, .eor, .imm z⟩,
   ⟨[0x4D, loByte w, hiByte w], .eorAbs w, .eor, .mem (.abs w)⟩,
   ⟨[0x51, z], .eorIndy z, .eor, .mem (.indy z)⟩,
   ⟨[0x55, z], .eorZpx z, .eor, .mem (.zpx z)⟩,
   ⟨[0x59, loByte w, hiByte w], .eorAbsy w, .eor, .mem (.absy w)⟩,
   ⟨[0x5D, loByte w, hiByte w], .eorAbsx w, .eor, .mem (.absx w)⟩]

/-- BIT (R136). -/
def bitForms (z : Byte) (w : Addr) : List (Form (MemMode)) :=
  [⟨[0x24, z], .bitZp z, .zp z⟩,
   ⟨[0x2C, loByte w, hiByte w], .bitAbs w, .abs w⟩]

/-- ASL A, LSR A, ROL A, ROR A (R138 to R141). -/
def accShiftForms : List (Form (ShiftOp)) :=
  [⟨[0x0A], .aslAcc, .asl⟩,
   ⟨[0x4A], .lsrAcc, .lsr⟩,
   ⟨[0x2A], .rolAcc, .rol⟩,
   ⟨[0x6A], .rorAcc, .ror⟩]

/-- ASL, LSR, ROL, ROR on memory (R138 to R141). -/
def memShiftForms (z : Byte) (w : Addr) : List (Form (ShiftOp × MemMode)) :=
  [⟨[0x06, z], .aslZp z, .asl, .zp z⟩,
   ⟨[0x0E, loByte w, hiByte w], .aslAbs w, .asl, .abs w⟩,
   ⟨[0x16, z], .aslZpx z, .asl, .zpx z⟩,
   ⟨[0x1E, loByte w, hiByte w], .aslAbsx w, .asl, .absx w⟩,
   ⟨[0x46, z], .lsrZp z, .lsr, .zp z⟩,
   ⟨[0x4E, loByte w, hiByte w], .lsrAbs w, .lsr, .abs w⟩,
   ⟨[0x56, z], .lsrZpx z, .lsr, .zpx z⟩,
   ⟨[0x5E, loByte w, hiByte w], .lsrAbsx w, .lsr, .absx w⟩,
   ⟨[0x26, z], .rolZp z, .rol, .zp z⟩,
   ⟨[0x2E, loByte w, hiByte w], .rolAbs w, .rol, .abs w⟩,
   ⟨[0x36, z], .rolZpx z, .rol, .zpx z⟩,
   ⟨[0x3E, loByte w, hiByte w], .rolAbsx w, .rol, .absx w⟩] ++
  [⟨[0x66, z], .rorZp z, .ror, .zp z⟩,
   ⟨[0x6E, loByte w, hiByte w], .rorAbs w, .ror, .abs w⟩,
   ⟨[0x76, z], .rorZpx z, .ror, .zpx z⟩,
   ⟨[0x7E, loByte w, hiByte w], .rorAbsx w, .ror, .absx w⟩]

/-- INC and DEC (R142, R143): what is added and the mode. -/
def incDecForms (z : Byte) (w : Addr) : List (Form (Int × MemMode)) :=
  [⟨[0xE6, z], .incZp z, 1, .zp z⟩,
   ⟨[0xEE, loByte w, hiByte w], .incAbs w, 1, .abs w⟩,
   ⟨[0xF6, z], .incZpx z, 1, .zpx z⟩,
   ⟨[0xFE, loByte w, hiByte w], .incAbsx w, 1, .absx w⟩,
   ⟨[0xC6, z], .decZp z, -1, .zp z⟩,
   ⟨[0xCE, loByte w, hiByte w], .decAbs w, -1, .abs w⟩,
   ⟨[0xD6, z], .decZpx z, -1, .zpx z⟩,
   ⟨[0xDE, loByte w, hiByte w], .decAbsx w, -1, .absx w⟩]

/-- INX, INY, DEX, DEY (R144 to R147): the register and what is added. -/
def stepRegForms : List (Form (Reg × Int)) :=
  [⟨[0xE8], .inx, .x, 1⟩,
   ⟨[0xC8], .iny, .y, 1⟩,
   ⟨[0xCA], .dex, .x, -1⟩,
   ⟨[0x88], .dey, .y, -1⟩]

/-- TAX, TAY, TXA, TYA (R148 to R151): from and to. -/
def transferForms : List (Form (Reg × Reg)) :=
  [⟨[0xAA], .tax, .a, .x⟩,
   ⟨[0xA8], .tay, .a, .y⟩,
   ⟨[0x8A], .txa, .x, .a⟩,
   ⟨[0x98], .tya, .y, .a⟩]

/-- The flag instructions (R154 to R160): the flag and the value it gets. -/
def flagForms : List (Form (Flag × Bool)) :=
  [⟨[0x18], .clc, .c, false⟩,
   ⟨[0x38], .sec, .c, true⟩,
   ⟨[0x58], .cli, .i, false⟩,
   ⟨[0x78], .sei, .i, true⟩,
   ⟨[0xB8], .clv, .v, false⟩,
   ⟨[0xD8], .cld, .d, false⟩,
   ⟨[0xF8], .sed, .d, true⟩]

/-- The branches (R162 to R169): the flag and the value branched on. -/
def branchForms (z : Byte) : List (Form (Flag × Bool)) :=
  [⟨[0x90, z], .bcc z, .c, false⟩,
   ⟨[0xB0, z], .bcs z, .c, true⟩,
   ⟨[0xF0, z], .beq z, .z, true⟩,
   ⟨[0xD0, z], .bne z, .z, false⟩,
   ⟨[0x30, z], .bmi z, .n, true⟩,
   ⟨[0x10, z], .bpl z, .n, false⟩,
   ⟨[0x50, z], .bvc z, .v, false⟩,
   ⟨[0x70, z], .bvs z, .v, true⟩]

end Sys2Proof.Machine

open Sys2Proof Sys2Proof.Machine

/-! ### Encoding -/

/-- R81, R85, R87: words written bit by bit from the encoding patterns decode to the instruction they stand
for, one of every family. -/
def Obligations.EncodedWordsOfEveryFamilyDecode : Prop :=
  decode [0b10101001, 0x34] = .ok (.ldaImm 0x34, []) ∧
  decode [0b10001101, 0x01, 0xF0] = .ok (.staAbs 0xF001#16, []) ∧
  decode [0b01101001, 0x10] = .ok (.adcImm 0x10, []) ∧
  decode [0b11011101, 0xFF, 0x02] = .ok (.cmpAbsx 0x02FF, []) ∧
  decode [0b01000001, 0x20] = .ok (.eorIndx 0x20, []) ∧
  decode [0b00101010] = .ok (.rolAcc, []) ∧
  decode [0b11100110, 0x10] = .ok (.incZp 0x10, []) ∧
  decode [0b11101000] = .ok (.inx, []) ∧
  decode [0b10111010] = .ok (.tsx, []) ∧
  decode [0b01011000] = .ok (.cli, []) ∧
  decode [0b11110000, 0x13] = .ok (.beq 0x13, []) ∧
  decode [0b01101100, 0xFF, 0x12] = .ok (.jmpInd 0x12FF, []) ∧
  decode [0b00101000] = .ok (.plp, []) ∧
  decode [0b00000000, 0xAA] = .ok (.brk 0xAA, [])

/-- R81 to R85: decoding and encoding agree in both directions, for every instruction at every operand
value: bytes decode to `i` with `rest` left over exactly when they are the encoding of `i` before `rest`. -/
def Obligations.DecodeAndEncodeAgree : Prop :=
  ∀ (bytes : List Byte) (i : Instr) (rest : List Byte),
    decode bytes = .ok (i, rest) ↔ bytes = encode i ++ rest

/-- R89: an opcode byte is refused by its name exactly when it is one of the 105 listed, whatever follows
it, and the list holds 105 different bytes. -/
def Obligations.ExactlyTheListedOpcodesAreNotImplemented : Prop :=
  (∀ (op : Byte) (rest : List Byte),
    decode (op :: rest) = .error (.opcodeNotImplemented op) ↔ op ∈ notImplementedOpcodes) ∧
  notImplementedOpcodes.Nodup ∧ notImplementedOpcodes.length = 105

/-- R81 to R83: bytes pass the well-formedness check, which is written from R86's columns and R89's list,
exactly when they decode to one instruction with nothing left over. -/
def Obligations.WellFormedCodeIsWhatDecodes : Prop :=
  ∀ bytes : List Byte, wellFormedCode bytes = true ↔ ∃ i, decode bytes = .ok (i, [])

/-! ### Memory, bus and stack -/

/-- R51, R54 (the canonical form is the model's choice, notes/assumptions/2.md): two canonical memories that
read alike at every address are equal data. -/
def Obligations.MemoriesThatReadAlikeAreEqual : Prop :=
  ∀ m n : Memory, m.wf → n.wf → (∀ a : Addr, m.read a.toNat = n.read a.toNat) → m = n

/-- R56, R57: a bus read returns the RAM byte and changes nothing, except at 0xF000, where it takes the next
keyboard byte (0x00 when the buffer is exhausted) and never looks at RAM. -/
def Obligations.BusReadTakesRamOrTheNextKey : Prop :=
  ∀ (s : State) (a : Addr), s.read8 a = (busValue s a, s.setKbdCur (cursorAfter s a))

/-- R58, R59, R60: a bus write stores its byte, at 0xF000 only as the OPEN parameter says, with an event at
0xF001, and touches nothing else. -/
def Obligations.BusWriteStoresAndEmits : Prop :=
  ∀ (s : State) (a : Addr) (v : Byte),
    StoresByte a v s (s.write8 a v) ∧ SameRegsBut [] s (s.write8 a v) ∧
    (s.write8 a v).sp = s.sp ∧ (s.write8 a v).pc = s.pc ∧ (s.write8 a v).p = s.p ∧
    (s.write8 a v).kbdCur = s.kbdCur ∧ SameHost s (s.write8 a v) ∧
    Indicators s.pageCross s.taken (s.write8 a v)

/-- R19, R71, R73: a push writes at `0x0100 | SP` and then decrements SP modulo 256, so no push leaves the
stack page; a word goes high byte first. -/
def Obligations.PushesStayInTheStackPage : Prop :=
  ∀ (s : State) (v : Byte) (w : Addr),
    PushesBytes [v] s (s.push8 v) ∧ PushesBytes [hiByte w, loByte w] s (s.push16 w) ∧
    ∀ sp : Byte, (stackAddr sp).toNat = 0x100 + sp.toNat

/-- R72, R74 with the source's properties: what was pushed is popped again, SP is restored, and nothing but
the pushed bytes has changed. -/
def Obligations.PopGivesBackWhatWasPushed : Prop :=
  ∀ (s : State) (v : Byte) (w : Addr), s.mem.wf →
    (s.push8 v).pop8 = (v, (s.push8 v).setSp s.sp) ∧
    (s.push16 w).pop16 = (w, (s.push16 w).setSp s.sp)

/-! ### The addressing unit -/

/-- R104 to R111: the effective address and page-cross indicator of every data mode, by the spec's formulas:
zero-page sums and pointers wrap inside the zero page, 16-bit sums modulo 65536, and the indicator says that
the high bytes of base and sum differ. The unit changes no state. -/
def Obligations.EffectiveAddressesFollowTheFormulas : Prop :=
  ∀ (s : State) (z : Byte) (w : Addr),
    let ptrX := (z.toNat + s.x.toNat) % 256
    let word := fun p : Nat =>
      (s.peek (BitVec.ofNat 16 p)).toNat + 256 * (s.peek (BitVec.ofNat 16 ((p + 1) % 256))).toNat
    let ea := fun m => ((s.effAddr m).1.addr.toNat, (s.effAddr m).1.cross)
    let sum := fun base index : Nat => (base + index) % 65536
    let cross := fun base index : Nat => decide (base / 256 ≠ sum base index / 256)
    ea (.zp z) = (z.toNat, false) ∧
    ea (.zpx z) = ((z.toNat + s.x.toNat) % 256, false) ∧
    ea (.zpy z) = ((z.toNat + s.y.toNat) % 256, false) ∧
    ea (.abs w) = (w.toNat, false) ∧
    ea (.absx w) = (sum w.toNat s.x.toNat, cross w.toNat s.x.toNat) ∧
    ea (.absy w) = (sum w.toNat s.y.toNat, cross w.toNat s.y.toNat) ∧
    ea (.indx z) = (word ptrX, false) ∧
    ea (.indy z) =
      (sum (word z.toNat) s.y.toNat, cross (word z.toNat) s.y.toNat) ∧
    ∀ m, (s.effAddr m).2 = s

/-- R112 with property 9: a branch target is PC past the operand plus the signed offset, modulo 65536, and
the indicator says that the two addresses lie in different pages. -/
def Obligations.BranchTargetIsPcPlusSignedOffset : Prop :=
  (∀ (pc : Addr) (r : Byte),
    ((branchTarget pc r).addr.toNat : Int) = ((pc.toNat : Int) + r.toInt) % 65536 ∧
    (branchTarget pc r).cross = decide (pc.toNat / 256 ≠ (branchTarget pc r).addr.toNat / 256)) ∧
  branchTarget 0xC001#16 0x80#8 = ⟨0xBF81#16, true⟩

/-! ### Flags and the ALU -/

/-- R28: `UpdateZN` sets Z and N from the value and writes no other bit of P, nor anything else. -/
def Obligations.UpdateZNWritesZAndNOnly : Prop :=
  ∀ (s : State) (v : Byte),
    ZNOf (s.updateZN v) v ∧ SameFlagsBut [.z, .n] s (s.updateZN v) ∧
    s.updateZN v = s.setP (s.updateZN v).p

/-- R27: `set_flag` writes the one bit and leaves the other seven. -/
def Obligations.SetFlagLeavesTheOtherSeven : Prop :=
  ∀ (s : State) (f : Flag) (b : Bool),
    (s.setFlag f b).flag f = b ∧ SameFlagsBut [f] s (s.setFlag f b) ∧
    s.setFlag f b = s.setP (s.setFlag f b).p

/-- R126: the adder's byte, carry and overflow; the overflow bit is the spec's formula and says that the
signed sum does not fit. -/
def Obligations.AdderGivesSumCarryAndOverflow : Prop :=
  ∀ (a m : Byte) (c : Bool),
    (addC a m c).value.toNat = (a.toNat + m.toNat + c.toNat) % 256 ∧
    (addC a m c).carry = decide (255 < a.toNat + m.toNat + c.toNat) ∧
    (addC a m c).overflow = (~~~(a ^^^ m) &&& (a ^^^ (addC a m c).value) &&& 0x80#8 != 0) ∧
    (addC a m c).overflow = signedOverflow (a.toInt + m.toInt + c.toNat)

/-! ### The instructions -/

/-- R118 to R120: every load puts M in its register and Z, N on it; the rest stays. -/
def Obligations.LoadsSetTheRegisterZAndN : Prop :=
  ∀ (s : State) (z : Byte) (w : Addr), ∀ f ∈ loadForms z w,
    decode f.bytes = .ok (f.instr, []) ∧
    ∃ t, exec f.instr s = .next t ∧
      t.getReg f.how.1 = operandValue s f.how.2 ∧ ZNOf t (operandValue s f.how.2) ∧
      SameFlagsBut [.z, .n] s t ∧ SameRegsBut [f.how.1] s t ∧ OnlyReads f.how.2 s t

/-- R121 to R123: every store writes its register at the effective address, with no read of it (the keyboard
cursor never moves), and changes no register and no bit of P. -/
def Obligations.StoresWriteOneByteAndNoFlag : Prop :=
  ∀ (s : State) (z : Byte) (w : Addr), ∀ f ∈ storeForms z w,
    decode f.bytes = .ok (f.instr, []) ∧
    ∃ t, exec f.instr s = .next t ∧
      StoresByte (s.effAddr f.how.2).1.addr (s.getReg f.how.1) s t ∧
      SameRegsBut [] s t ∧ t.p = s.p ∧ t.sp = s.sp ∧ t.pc = s.pc ∧
      t.kbdCur = s.kbdCur ∧ SameHost s t ∧ Indicators (s.effAddr f.how.2).1.cross s.taken t

/-- R128 (with R124 to R126): ADC is the binary sum of A, M and C; C the carry out of bit 7, V the signed
overflow, Z and N of the result; D is kept and not read (`NothingButPushedStatusDependsOnD`). -/
def Obligations.AdcIsTheBinarySum : Prop :=
  ∀ (s : State) (z : Byte) (w : Addr), ∀ f ∈ adcForms z w,
    decode f.bytes = .ok (f.instr, []) ∧
    ∃ t, exec f.instr s = .next t ∧
      t.a.toNat = (s.a.toNat + (operandValue s f.how).toNat + (s.flag .c).toNat) % 256 ∧
      t.flag .c = decide (255 < s.a.toNat + (operandValue s f.how).toNat + (s.flag .c).toNat) ∧
      t.flag .v = signedOverflow (s.a.toInt + (operandValue s f.how).toInt + (s.flag .c).toNat) ∧
      ZNOf t t.a ∧ SameFlagsBut [.c, .v, .z, .n] s t ∧ SameRegsBut [.a] s t ∧ OnlyReads f.how s t

/-- R129 (with R124 to R126): SBC is A - M - (1 - C); C says that no borrow was needed, V that the signed
difference does not fit, Z and N of the result; and it is ADC of the complement of M (property 3). -/
def Obligations.SbcIsTheDifferenceWithBorrow : Prop :=
  (∀ (s : State) (m : Byte), exec (.sbcImm m) s = exec (.adcImm (m ^^^ 0xFF#8)) s) ∧
  ∀ (s : State) (z : Byte) (w : Addr), ∀ f ∈ sbcForms z w,
    decode f.bytes = .ok (f.instr, []) ∧
    ∃ t, exec f.instr s = .next t ∧
      (t.a.toNat : Int) =
        ((s.a.toNat : Int) - (operandValue s f.how).toNat - (1 - (s.flag .c).toNat)) % 256 ∧
      t.flag .c =
        decide (0 ≤ (s.a.toNat : Int) - (operandValue s f.how).toNat - (1 - (s.flag .c).toNat)) ∧
      t.flag .v =
        signedOverflow (s.a.toInt - (operandValue s f.how).toInt - (1 - (s.flag .c).toNat)) ∧
      ZNOf t t.a ∧ SameFlagsBut [.c, .v, .z, .n] s t ∧ SameRegsBut [.a] s t ∧ OnlyReads f.how s t

/-- R127, R130 to R132: a compare sets C to `reg >= M` (unsigned), Z to `reg = M` and N to bit 7 of the
wrapped difference, and writes no register, V or other flag. -/
def Obligations.ComparesSetCZNOnly : Prop :=
  ∀ (s : State) (z : Byte) (w : Addr), ∀ f ∈ compareForms z w,
    decode f.bytes = .ok (f.instr, []) ∧
    ∃ t, exec f.instr s = .next t ∧
      t.flag .c = decide ((operandValue s f.how.2).toNat ≤ (s.getReg f.how.1).toNat) ∧
      t.flag .z = decide (s.getReg f.how.1 = operandValue s f.how.2) ∧
      t.flag .n = decide
        (128 ≤ ((s.getReg f.how.1).toNat + 256 - (operandValue s f.how.2).toNat) % 256) ∧
      SameFlagsBut [.c, .z, .n] s t ∧ SameRegsBut [] s t ∧ OnlyReads f.how.2 s t

/-- R133 to R135: AND, ORA and EOR bit by bit into A, Z and N on the result; C and V stay. -/
def Obligations.LogicWorksBitwiseOnA : Prop :=
  ∀ (s : State) (z : Byte) (w : Addr), ∀ f ∈ logicForms z w,
    decode f.bytes = .ok (f.instr, []) ∧
    ∃ t, exec f.instr s = .next t ∧
      (∀ k < 8, t.a.getLsbD k =
        f.how.1.onBit (s.a.getLsbD k) ((operandValue s f.how.2).getLsbD k)) ∧
      ZNOf t t.a ∧ SameFlagsBut [.z, .n] s t ∧ SameRegsBut [.a] s t ∧ OnlyReads f.how.2 s t

/-- R136: BIT sets Z from A & M, N and V from bits 7 and 6 of M alone; A, C and memory stay. -/
def Obligations.BitTestsMemoryAgainstA : Prop :=
  ∀ (s : State) (z : Byte) (w : Addr), ∀ f ∈ bitForms z w,
    decode f.bytes = .ok (f.instr, []) ∧
    ∃ t, exec f.instr s = .next t ∧
      t.flag .z = decide (s.a &&& operandValue s (.mem f.how) = 0#8) ∧
      t.flag .n = (operandValue s (.mem f.how)).getLsbD 7 ∧
      t.flag .v = (operandValue s (.mem f.how)).getLsbD 6 ∧
      SameFlagsBut [.z, .n, .v] s t ∧ SameRegsBut [] s t ∧ OnlyReads (.mem f.how) s t

/-- R137 to R141: ASL, LSR, ROL and ROR. In the accumulator form A is shifted with no bus access, in a
memory form there is one read and one write at the effective address, of the shifted byte; C is the bit
shifted out, Z and N of the result, V and the other flags kept. -/
def Obligations.ShiftsAndRotatesMoveOneBit : Prop :=
  (∀ s : State, ∀ f ∈ accShiftForms,
    decode f.bytes = .ok (f.instr, []) ∧
    ∃ t, exec f.instr s = .next t ∧
      t.a.toNat = f.how.result (s.flag .c) s.a ∧ t.flag .c = f.how.carryOut s.a ∧ ZNOf t t.a ∧
      SameFlagsBut [.c, .z, .n] s t ∧ SameRegsBut [.a] s t ∧ t.sp = s.sp ∧ t.pc = s.pc ∧ Quiet s t) ∧
  ∀ (s : State) (z : Byte) (w : Addr), ∀ f ∈ memShiftForms z w,
    decode f.bytes = .ok (f.instr, []) ∧
    ∃ t r, exec f.instr s = .next t ∧
      r.toNat = f.how.1.result (s.flag .c) (operandValue s (.mem f.how.2)) ∧
      t.flag .c = f.how.1.carryOut (operandValue s (.mem f.how.2)) ∧ ZNOf t r ∧
      StoresByte (s.effAddr f.how.2).1.addr r s t ∧
      SameFlagsBut [.c, .z, .n] s t ∧ SameRegsBut [] s t ∧ t.sp = s.sp ∧ t.pc = s.pc ∧
      t.kbdCur = cursorAfterOperand s (.mem f.how.2) ∧ SameHost s t ∧
      Indicators (s.effAddr f.how.2).1.cross s.taken t

/-- R142, R143: INC and DEC write the byte at the effective address plus or minus one, modulo 256, once,
with Z and N on it; C and V stay. -/
def Obligations.IncAndDecWriteOnceModulo256 : Prop :=
  ∀ (s : State) (z : Byte) (w : Addr), ∀ f ∈ incDecForms z w,
    decode f.bytes = .ok (f.instr, []) ∧
    ∃ t r, exec f.instr s = .next t ∧
      (r.toNat : Int) = ((operandValue s (.mem f.how.2)).toNat + f.how.1) % 256 ∧ ZNOf t r ∧
      StoresByte (s.effAddr f.how.2).1.addr r s t ∧
      SameFlagsBut [.z, .n] s t ∧ SameRegsBut [] s t ∧ t.sp = s.sp ∧ t.pc = s.pc ∧
      t.kbdCur = cursorAfterOperand s (.mem f.how.2) ∧ SameHost s t ∧
      Indicators (s.effAddr f.how.2).1.cross s.taken t

/-- R144 to R147: INX, INY, DEX, DEY step their register modulo 256, with Z and N on it. -/
def Obligations.IndexRegistersStepModulo256 : Prop :=
  ∀ s : State, ∀ f ∈ stepRegForms,
    decode f.bytes = .ok (f.instr, []) ∧
    ∃ t, exec f.instr s = .next t ∧
      ((t.getReg f.how.1).toNat : Int) = ((s.getReg f.how.1).toNat + f.how.2) % 256 ∧
      ZNOf t (t.getReg f.how.1) ∧ SameFlagsBut [.z, .n] s t ∧ SameRegsBut [f.how.1] s t ∧
      t.sp = s.sp ∧ t.pc = s.pc ∧ Quiet s t

/-- R148 to R153: the transfers copy their source, TAX, TAY, TXA, TYA and TSX with Z and N on it, TXS with
no flag at all. -/
def Obligations.TransfersCopyAndOnlyTxsKeepsFlags : Prop :=
  (∀ s : State, ∀ f ∈ transferForms,
    decode f.bytes = .ok (f.instr, []) ∧
    ∃ t, exec f.instr s = .next t ∧
      t.getReg f.how.2 = s.getReg f.how.1 ∧ ZNOf t (s.getReg f.how.1) ∧
      SameFlagsBut [.z, .n] s t ∧ SameRegsBut [f.how.2] s t ∧ t.sp = s.sp ∧ t.pc = s.pc ∧ Quiet s t) ∧
  (decode [0xBA] = .ok (.tsx, []) ∧ ∀ s : State, ∃ t, exec .tsx s = .next t ∧
      t.x = s.sp ∧ ZNOf t s.sp ∧ SameFlagsBut [.z, .n] s t ∧ SameRegsBut [.x] s t ∧
      t.sp = s.sp ∧ t.pc = s.pc ∧ Quiet s t) ∧
  (decode [0x9A] = .ok (.txs, []) ∧ ∀ s : State, ∃ t, exec .txs s = .next t ∧
      t.sp = s.x ∧ t.p = s.p ∧ SameRegsBut [] s t ∧ t.pc = s.pc ∧ Quiet s t)

/-- R154 to R160: each flag instruction writes its one flag and nothing else. -/
def Obligations.FlagInstructionsWriteOneFlag : Prop :=
  ∀ s : State, ∀ f ∈ flagForms,
    decode f.bytes = .ok (f.instr, []) ∧
    ∃ t, exec f.instr s = .next t ∧
      t.flag f.how.1 = f.how.2 ∧ SameFlagsBut [f.how.1] s t ∧ SameRegsBut [] s t ∧
      t.sp = s.sp ∧ t.pc = s.pc ∧ Quiet s t

/-- R161 to R169: a branch goes to its target when its flag has its value and to the next instruction
otherwise, reads and writes nothing and no flag or register; the indicators say whether the target lies in
another page and whether it is taken. -/
def Obligations.BranchesFollowTheirFlag : Prop :=
  ∀ (s : State) (z : Byte), ∀ f ∈ branchForms z,
    decode f.bytes = .ok (f.instr, []) ∧
    ∃ t, exec f.instr s = .next t ∧
      (t.pc.toNat : Int) =
        (if s.flag f.how.1 = f.how.2 then ((s.pc.toNat : Int) + z.toInt) % 65536 else s.pc.toNat) ∧
      t.p = s.p ∧ SameRegsBut [] s t ∧ t.sp = s.sp ∧ SameMemory s t ∧ t.events = s.events ∧
      t.kbdCur = s.kbdCur ∧ SameHost s t ∧
      Indicators (branchTarget s.pc z).cross (decide (s.flag f.how.1 = f.how.2)) t

/-- R170, R113: JMP goes to its operand, or to the word at its pointer with the page-wrap bug; a pointer
byte at 0xF000 consumes a key (R116). Nothing else changes. -/
def Obligations.JumpsLoadPcWithThePageWrapBug : Prop :=
  ∀ (s : State) (w : Addr),
    decode [0x4C, loByte w, hiByte w] = .ok (.jmpAbs w, []) ∧
    decode [0x6C, loByte w, hiByte w] = .ok (.jmpInd w, []) ∧
    (∃ t, exec (.jmpAbs w) s = .next t ∧ t.pc = w ∧ t.p = s.p ∧ SameRegsBut [] s t ∧ t.sp = s.sp ∧
      Quiet s t) ∧
    ∃ t, exec (.jmpInd w) s = .next t ∧
      (let next := BitVec.ofNat 16 (w.toNat / 256 * 256 + (w.toNat + 1) % 256)
       t.pc.toNat = (busValue s w).toNat + 256 * (busValue s next).toNat ∧
       t.kbdCur = max (cursorAfter s w) (cursorAfter s next)) ∧
      t.p = s.p ∧ SameRegsBut [] s t ∧ t.sp = s.sp ∧ SameMemory s t ∧ t.events = s.events ∧
      SameHost s t ∧ Indicators s.pageCross s.taken t

/-- R171: JSR pushes PC - 1 (PC is past its operand), high byte first, and goes to its operand; no flag or
register is written. -/
def Obligations.JsrPushesTheLastOperandAddress : Prop :=
  ∀ (s : State) (w : Addr),
    decode [0x20, loByte w, hiByte w] = .ok (.jsr w, []) ∧
    ∃ t, exec (.jsr w) s = .next t ∧ t.pc = w ∧
      PushesBytes [hiByte (s.pc - 1#16), loByte (s.pc - 1#16)] s t ∧
      t.p = s.p ∧ SameRegsBut [] s t ∧ SameHost s t

/-- R172: RTS pops a word, low byte first, and goes to the address after it; P is not pulled. With its
property 6: JSR and then RTS, whatever the subroutine did to A, X, Y, P and PC in between, come back to the
address after the JSR, with SP as it was. -/
def Obligations.RtsReturnsToTheWordPlusOne : Prop :=
  decode [0x60] = .ok (.rts, []) ∧
  (∀ s : State, ∃ t, exec .rts s = .next t ∧
    t.pc.toNat = ((s.peek (stackAddr (s.sp + 1#8))).toNat +
      256 * (s.peek (stackAddr (s.sp + 2#8))).toNat + 1) % 65536 ∧
    t.sp = s.sp + 2#8 ∧ t.p = s.p ∧ SameRegsBut [] s t ∧ Quiet s t) ∧
  ∀ (s t : State) (w pc : Addr) (a x y p : Byte), s.mem.wf → exec (.jsr w) s = .next t →
    ∃ u, exec .rts (((((t.setPc pc).setA a).setX x).setY y).setP p) = .next u ∧
      u.pc = s.pc ∧ u.sp = s.sp

/-- R173, R175: PHA pushes A and PHP pushes P with bits 4 and 5 set; neither writes a register or P. -/
def Obligations.PhaAndPhpPushOneByte : Prop :=
  decode [0x48] = .ok (.pha, []) ∧ decode [0x08] = .ok (.php, []) ∧
  ∀ s : State,
    (∃ t, exec .pha s = .next t ∧ PushesBytes [s.a] s t ∧ t.p = s.p ∧ t.pc = s.pc ∧
      SameRegsBut [] s t ∧ SameHost s t) ∧
    ∃ t, exec .php s = .next t ∧ PushesBytes [s.p ||| 0x30#8] s t ∧ t.p = s.p ∧ t.pc = s.pc ∧
      SameRegsBut [] s t ∧ SameHost s t

/-- R174, R176, R40: PLA pulls A with Z and N on it; PLP pulls P with bit 4 cleared and bit 5 set. -/
def Obligations.PlaAndPlpPullOneByte : Prop :=
  decode [0x68] = .ok (.pla, []) ∧ decode [0x28] = .ok (.plp, []) ∧
  ∀ s : State,
    (∃ t, exec .pla s = .next t ∧ t.a = s.peek (stackAddr (s.sp + 1#8)) ∧ ZNOf t t.a ∧
      SameFlagsBut [.z, .n] s t ∧ t.sp = s.sp + 1#8 ∧ t.pc = s.pc ∧ SameRegsBut [.a] s t ∧ Quiet s t) ∧
    ∃ t, exec .plp s = .next t ∧
      t.flag .b = false ∧ t.flag .u = true ∧
      (∀ f : Flag, f ∉ [Flag.b, Flag.u] →
        t.flag f = (s.peek (stackAddr (s.sp + 1#8))).getLsbD f.bit) ∧
      t.sp = s.sp + 1#8 ∧ t.pc = s.pc ∧ SameRegsBut [] s t ∧ Quiet s t

/-! ### Interrupts -/

/-- R183, R38, R39: the service sequence pushes PC high, PC low and the status (bit 5 set, bit 4 set for BRK
and cleared for IRQ and NMI), sets I, and loads PC from the vector; the other flags, A, X, Y, the latches
and `halted` stay. -/
def Obligations.ServiceSequencePushesThreeBytesAndMasks : Prop :=
  ∀ (s : State) (brk : Bool), ∀ vector ∈ [0xFFFA#16, 0xFFFE#16],
    let t := s.serviceSequence vector brk
    PushesBytes
      [hiByte s.pc, loByte s.pc, if brk then s.p ||| 0x30#8 else (s.p ||| 0x20#8) &&& 0xEF#8] s t ∧
    t.pc.toNat = wordAt s vector ∧ t.flag .i = true ∧ SameFlagsBut [.i] s t ∧
    SameRegsBut [] s t ∧ SameHost s t

/-- R182, R187: at the head of a step NMI is served first (vector 0xFFFA, its latch cleared, IRQ left
pending), then IRQ if I is clear (vector 0xFFFE), otherwise nothing. -/
def Obligations.NmiComesBeforeIrqAndIMasksIrq : Prop :=
  ∀ s : State,
    (s.nmiPending = true →
      s.serviceInterrupts = (s.serviceSequence 0xFFFA#16 false).setNmiPending false) ∧
    (s.nmiPending = false → s.irqPending = true → s.flag .i = false →
      s.serviceInterrupts = (s.serviceSequence 0xFFFE#16 false).setIrqPending false) ∧
    (s.nmiPending = false → (s.irqPending = false ∨ s.flag .i = true) → s.serviceInterrupts = s)

/-- R181: the two triggers set their latch and nothing else; a second trigger before the service changes
nothing. -/
def Obligations.TriggersSetOneLatch : Prop :=
  ∀ s : State,
    s.triggerIrq.irqPending = true ∧ s.triggerIrq = s.setIrqPending s.triggerIrq.irqPending ∧
    s.triggerIrq.triggerIrq = s.triggerIrq ∧
    s.triggerNmi.nmiPending = true ∧ s.triggerNmi = s.setNmiPending s.triggerNmi.nmiPending ∧
    s.triggerNmi.triggerNmi = s.triggerNmi

/-- R212: a change of I takes effect at the very next step head. After CLI, or PLP or RTI with I = 0 in the
pulled byte, a pending IRQ is due there; after SEI, or PLP or RTI with I = 1, only an NMI is. -/
def Obligations.AMaskChangeTakesEffectAtTheNextStepHead : Prop :=
  ∀ s : State,
    (∃ t, exec .cli s = .next t ∧ t.interruptDue = (s.nmiPending || s.irqPending)) ∧
    (∃ t, exec .sei s = .next t ∧ t.interruptDue = s.nmiPending) ∧
    ∀ i ∈ [Instr.plp, .rti], ∃ t, exec i s = .next t ∧
      t.interruptDue = (s.nmiPending ||
        (s.irqPending && !(s.peek (stackAddr (s.sp + 1#8))).getLsbD 2))

/-- R177: BRK pushes PC (past the padding byte) and the status with B = 1, sets I, goes through the IRQ
vector and sets `halted`, whatever I and the latches hold. -/
def Obligations.BrkServicesTheIrqVectorAndHalts : Prop :=
  ∀ (s : State) (p : Byte),
    decode [0x00, p] = .ok (.brk p, []) ∧
    ∃ t, exec (.brk p) s = .next t ∧
      PushesBytes [hiByte s.pc, loByte s.pc, s.p ||| 0x30#8] s t ∧
      t.pc.toNat = wordAt s 0xFFFE#16 ∧ t.flag .i = true ∧ SameFlagsBut [.i] s t ∧
      SameRegsBut [] s t ∧ t.halted = true ∧
      t.irqPending = s.irqPending ∧ t.nmiPending = s.nmiPending ∧ t.romLoaded = s.romLoaded ∧
      t.kbdBuf = s.kbdBuf ∧ t.cycles = s.cycles ∧ t.draws = s.draws

/-- R178, R40: RTI pulls P (bit 4 cleared, bit 5 set), then PC low and high with no `+ 1`, and does not
clear `halted`. -/
def Obligations.RtiPullsStatusAndPc : Prop :=
  decode [0x40] = .ok (.rti, []) ∧
  ∀ s : State, ∃ t, exec .rti s = .next t ∧
    t.flag .b = false ∧ t.flag .u = true ∧
    (∀ f : Flag, f ∉ [Flag.b, Flag.u] →
      t.flag f = (s.peek (stackAddr (s.sp + 1#8))).getLsbD f.bit) ∧
    t.pc.toNat = (s.peek (stackAddr (s.sp + 2#8))).toNat +
      256 * (s.peek (stackAddr (s.sp + 3#8))).toNat ∧
    t.sp = s.sp + 3#8 ∧ SameRegsBut [] s t ∧ Quiet s t

/-- R178, R188: RTI undoes an interrupt service, BRK's or a latch's: PC, SP and the six flags N, V, D, I, Z
and C come back, whatever the handler did to A, X, Y, P and PC. -/
def Obligations.RtiUndoesAService : Prop :=
  ∀ (s : State) (brk : Bool) (pc : Addr) (a x y p : Byte), s.mem.wf →
    ∀ vector ∈ [0xFFFA#16, 0xFFFE#16],
      let t := s.serviceSequence vector brk
      ∃ u, exec .rti (((((t.setPc pc).setA a).setX x).setY y).setP p) = .next u ∧
        u.pc = s.pc ∧ u.sp = s.sp ∧ SameFlagsBut [.b, .u] s u

/-- R179: NOP has no effect. -/
def Obligations.NopHasNoEffect : Prop :=
  decode [0xEA] = .ok (.nop, []) ∧ ∀ s : State, exec .nop s = .next s

/-! ### The step -/

/-- R95, R93, R99: when the bytes at PC, after the interrupt service of the step's head, decode to `i`, the
step is `exec i` at that state with PC past the bytes of `i` (and a key consumed where one of them lies at
0xF000, R79), ended by `endStep`, which charges the cycle counter. That all of the bytes are fetched before
the meaning runs is the model's reading, DEDUCED (notes/assumptions/5.md). -/
def Obligations.StepRunsTheDecodedInstruction : Prop :=
  ∀ (s : State) (i : Instr) (rest : List Byte), decode (codeAt s.beginStep) = .ok (i, rest) →
    step s = endStep s.interruptDue i
      (exec i ((s.beginStep.setKbdCur (cursorAfterFetch s.beginStep (encode i).length)).setPc
        (s.beginStep.pc + BitVec.ofNat 16 (encode i).length)))

/-- R191, R187: a step whose fetched opcode is one of R89's 105 ends in OpcodeNotImplemented, with the
interrupt service (if any) done, PC past the opcode, one key consumed where the opcode lies at 0xF000, and
nothing else changed: no operand fetched, no cycle counted. -/
def Obligations.NotImplementedOpcodeFaultsPastTheOpcode : Prop :=
  ∀ s : State, busValue s.beginStep s.beginStep.pc ∈ notImplementedOpcodes →
    step s = .fault (.opcodeNotImplemented (busValue s.beginStep s.beginStep.pc)
      ((s.beginStep.setKbdCur (cursorAfterFetch s.beginStep 1)).setPc (s.beginStep.pc + 1)))

/-- R97, R63: a step has exactly two outcomes, a next state or OpcodeNotImplemented, and the fault exactly
when the opcode fetched after the interrupt service is one of R89's. -/
def Obligations.StepEndsInNextOrNotImplementedOnly : Prop :=
  ∀ s : State,
    (busValue s.beginStep s.beginStep.pc ∉ notImplementedOpcodes → ∃ t, step s = .next t) ∧
    (busValue s.beginStep s.beginStep.pc ∈ notImplementedOpcodes →
      ∃ t, step s = .fault (.opcodeNotImplemented (busValue s.beginStep s.beginStep.pc) t))

/-- R95, R182, R183: the head of a step clears the two indicators (notes/assumptions/6.md) and runs the
interrupt service on that state. With no interrupt due that is all; with one due the latch of the one
serviced is cleared (NMI before IRQ), PC and the status with bit 4 clear and bit 5 set are pushed, I is
set, PC is the word at the vector, and the other flags and A, X, Y stay. -/
def Obligations.StepHeadServicesAtMostOneInterrupt : Prop :=
  ∀ s : State,
    let cleared := (s.setPageCross false).setTaken false
    s.beginStep = cleared.serviceInterrupts ∧
    (s.interruptDue = false → s.beginStep = cleared) ∧
    (s.interruptDue = true →
      s.beginStep.nmiPending = false ∧
      s.beginStep.irqPending = (s.irqPending && s.nmiPending) ∧
      PushesBytes [hiByte s.pc, loByte s.pc, (s.p ||| 0x20#8) &&& 0xEF#8] cleared s.beginStep ∧
      s.beginStep.pc.toNat = wordAt s (if s.nmiPending then 0xFFFA#16 else 0xFFFE#16) ∧
      s.beginStep.flag .i = true ∧ SameFlagsBut [.i] s s.beginStep ∧ SameRegsBut [] s s.beginStep ∧
      s.beginStep.halted = s.halted ∧ s.beginStep.cycles = s.cycles)

/-! ### The whole machine -/

/-- R50, R206: the reset state meets the invariant (memory canonical, cursor inside the buffer). -/
def Obligations.ResetMeetsTheInvariant : Prop := State.reset.Inv

/-- R47, R51, R54: every completed step keeps the invariant, from every state that has it. -/
def Obligations.EveryStepKeepsTheInvariant : Prop :=
  ∀ s t : State, s.Inv → step s = .next t → t.Inv

/-- R42 to R48, R60, R181, R182: what a completed step can do to the state outside registers and memory.
The NMI latch is clear afterwards; the IRQ latch stays only where it was masked or lost to an NMI; the ROM
mark and the keyboard buffer are the host's alone; the cursor only advances; events are only appended, and
only CharOut. -/
def Obligations.StepLeavesTheHostsStateAlone : Prop :=
  ∀ s t : State, step s = .next t →
    t.nmiPending = false ∧ t.irqPending = (s.irqPending && (s.nmiPending || s.flag .i)) ∧
    t.romLoaded = s.romLoaded ∧ t.kbdBuf = s.kbdBuf ∧ s.kbdCur ≤ t.kbdCur ∧
    ∃ es : List Event, t.events = s.events ++ es ∧ ∀ e ∈ es, ∃ v, e = .charOut v

/-- R45, R98, R177: a completed step leaves `halted` set exactly if it was set or the opcode it fetched was
BRK's. -/
def Obligations.OnlyBrkSetsHalted : Prop :=
  ∀ s t : State, step s = .next t →
    t.halted = (s.halted || decide (busValue s.beginStep s.beginStep.pc = 0x00#8))

/-- R33, R34: no step sets bit 4 of P, and no step clears bit 5. -/
def Obligations.NoStepSetsBOrClearsBit5 : Prop :=
  ∀ s t : State, step s = .next t →
    (s.flag .b = false → t.flag .b = false) ∧ (s.flag .u = true → t.flag .u = true)

/-- R33, R34, R38, R39: no program can observe bits 4 and 5 of P: changing one before an instruction changes
nothing after it but that bit, if anything. -/
def Obligations.BitsFourAndFiveAreUnobservable : Prop :=
  ∀ (i : Instr) (s : State) (b : Bool), ∀ f ∈ [Flag.b, Flag.u],
    ∃ t, exec i s = .next t ∧
      (exec i (s.setFlag f b) = .next t ∨ exec i (s.setFlag f b) = .next (t.setFlag f b))

/-- R32, R125: no instruction's result depends on D, except that PHP and BRK copy it to the stack and CLD,
SED, PLP and RTI write it: every other instruction does the same with D changed, and keeps it. -/
def Obligations.NothingButPushedStatusDependsOnD : Prop :=
  ∀ (i : Instr) (s : State) (d : Bool),
    i ∉ [Instr.php, Instr.cld, Instr.sed, Instr.plp, Instr.rti] → (∀ p, i ≠ .brk p) →
    ∃ t, exec i s = .next t ∧ exec i (s.setFlag .d d) = .next (t.setFlag .d d)

/-- R98: a step does not read `halted`: with `halted` changed it does the same, but for `halted`. -/
def Obligations.StepDoesNotReadHalted : Prop :=
  ∀ (s t : State) (b : Bool), step s = .next t →
    ∃ u, step (s.setHalted b) = .next u ∧ u.setHalted t.halted = t

/-- R42, R95: a completed step adds to `cycles` one draw of the OPEN cost, modulo 2^64, for the opcode, mode
and indicators of the instruction it ran; it holds for every cost. -/
def Obligations.StepAddsOneCostDrawToCycles : Prop :=
  ∀ (s t : State) (i : Instr) (rest : List Byte), decode (codeAt s.beginStep) = .ok (i, rest) →
    step s = .next t →
    t.draws = s.draws + 1 ∧
    t.cycles = s.cycles + BitVec.ofNat 64
      (Config.cycleCost s.draws (opcodeOf i) i.mode t.pageCross t.taken s.interruptDue)

/-! ### Reset and the host -/

/-- R206, R207, R41, R21, R18: `boot` gives these values from every state, loads PC from the word at 0xFFFC,
and leaves memory, the ROM mark, the keyboard buffer and the events as they are. -/
def Obligations.BootSetsTheResetValues : Prop :=
  ∀ s : State,
    s.boot.a = 0#8 ∧ s.boot.x = 0#8 ∧ s.boot.y = 0#8 ∧ s.boot.sp = 0xFD#8 ∧ s.boot.p = 0x04#8 ∧
    s.boot.pc.toNat = wordAt s 0xFFFC#16 ∧ s.boot.halted = false ∧ s.boot.irqPending = false ∧
    s.boot.nmiPending = false ∧ s.boot.cycles = 0#64 ∧ s.boot.kbdCur = 0 ∧
    s.boot.mem = s.mem ∧ s.boot.romLoaded = s.romLoaded ∧ s.boot.kbdBuf = s.kbdBuf ∧
    s.boot.events = s.events

/-- R205 with R54: the power-on state, value by value, memory reading zero everywhere. That the model's reset
state is `boot` of it is the model's choice (notes/assumptions/1.md). -/
def Obligations.PowerOnStateAndItsBoot : Prop :=
  powerOn.a = 0#8 ∧ powerOn.x = 0#8 ∧ powerOn.y = 0#8 ∧ powerOn.sp = 0xFD#8 ∧ powerOn.p = 0x04#8 ∧
  powerOn.pc = 0x0000#16 ∧ powerOn.cycles = 0#64 ∧ powerOn.irqPending = false ∧
  powerOn.nmiPending = false ∧ powerOn.halted = false ∧ powerOn.romLoaded = false ∧
  powerOn.kbdBuf = [] ∧ powerOn.kbdCur = 0 ∧ powerOn.events = [] ∧ (∀ a, powerOn.peek a = 0x00#8) ∧
  powerOn.boot = State.reset

/-- R62: `load_rom` copies its bytes to consecutive addresses past the I/O behaviour and sets the ROM mark,
or fails by name, the ROM mark checked first; no other byte changes. -/
def Obligations.LoadRomCopiesOnce : Prop :=
  ∀ (s : State) (bytes : List Byte) (base : Addr), s.mem.wf →
    (s.romLoaded = true → s.loadRom bytes base = .failed .romAlreadyLoaded) ∧
    (s.romLoaded = false → (bytes.length = 0 ∨ 65536 < base.toNat + bytes.length) →
      s.loadRom bytes base = .failed .romTooBig) ∧
    (s.romLoaded = false → 0 < bytes.length → base.toNat + bytes.length ≤ 65536 →
      ∃ t, s.loadRom bytes base = .done t ∧ t.romLoaded = true ∧
        (∀ k < bytes.length, t.peek (base + BitVec.ofNat 16 k) = bytes.getD k 0#8) ∧
        (∀ a : Addr, (a.toNat < base.toNat ∨ base.toNat + bytes.length ≤ a.toNat) →
          t.peek a = s.peek a) ∧
        t.events = s.events ∧ t.kbdCur = s.kbdCur ∧ t.kbdBuf = s.kbdBuf)

/-- R200, R203, D17: a run of no steps fails. A run on a halted machine takes no step and returns with
`ProgramHalted(0)`. From states that were not halted, `n` completed steps that halt the machine or use up
the budget make the run return with `ProgramHalted(n)`, and a step that faults within the budget ends the
run in that fault, with no event. Conversely a run that returns took `n` steps, at most its budget, from
states that were not halted, stopped for one of the two reasons, and then emitted `ProgramHalted(n)`. -/
def Obligations.RunStopsAtTheBudgetOrWhenHalted : Prop :=
  (∀ s : State, s.run 0#64 = .failed .zeroBudget) ∧
  (∀ (s : State) (budget : BitVec 64), budget ≠ 0#64 → s.halted = true →
    s.run budget = .done (s.emit (.programHalted 0#64))) ∧
  (∀ (s u : State) (budget : BitVec 64) (n : Nat), budget ≠ 0#64 → n ≤ budget.toNat →
    NotHaltedBefore n s → RunsTo n s u → (u.halted = true ∨ n = budget.toNat) →
    s.run budget = .done (u.emit (.programHalted (BitVec.ofNat 64 n)))) ∧
  (∀ (s u t : State) (budget : BitVec 64) (n : Nat) (op : Byte), n < budget.toNat →
    NotHaltedBefore (n + 1) s → RunsTo n s u → step u = .fault (.opcodeNotImplemented op t) →
    s.run budget = .fault (.opcodeNotImplemented op t) ∧ t.events = u.events) ∧
  ∀ (s t : State) (budget : BitVec 64), s.run budget = .done t →
    ∃ n u, n ≤ budget.toNat ∧ RunsTo n s u ∧ t = u.emit (.programHalted (BitVec.ofNat 64 n)) ∧
      (u.halted = true ∨ n = budget.toNat) ∧
      ∀ k < n, ∃ v, RunsTo k s v ∧ v.halted = false

/-- R201, R47, R57, R208: `send_keys` appends and does not move the cursor, and an empty one fails.
Successive bus reads at 0xF000 give the buffer's bytes in order from the cursor on, then 0x00; so once
everything before was read the keys sent are read in their order, and after `boot` every byte ever sent is
read again from the first. -/
def Obligations.SentKeysAreReadInOrder : Prop :=
  ∀ (s : State) (keys : List Byte),
    s.sendKeys [] = .failed .emptyInput ∧
    (keys ≠ [] → s.sendKeys keys = .done (s.setKbdBuf (s.kbdBuf ++ keys))) ∧
    (∀ n, keysRead n s = (List.range n).map fun k => s.kbdBuf.getD (s.kbdCur + k) 0#8) ∧
    (∀ t, s.kbdCur = s.kbdBuf.length → s.sendKeys keys = .done t → keysRead keys.length t = keys) ∧
    keysRead s.kbdBuf.length s.boot = s.kbdBuf

/-- R61: a `poke` is read back by `peek` at its address and changes no other byte; it emits no event and
touches nothing but memory, at the I/O addresses too, and `peek` at 0xF000 gives the RAM byte. -/
def Obligations.PokeIsReadBackAndBypassesTheBus : Prop :=
  ∀ (s : State) (a b : Addr) (v : Byte), s.mem.wf →
    (s.poke a v).peek b = (if b = a then v else s.peek b) ∧
    s.poke a v = s.setMem (s.poke a v).mem ∧ (s.poke 0xF000#16 v).peek 0xF000#16 = v

/-- R202: the accessors give A, X, Y, SP, PC, P and cycles; a setter stores its value exactly, with no
masking of P, and has no other effect: not on the other registers and flags, memory, the latches, the
events, the ROM mark, the keyboard or the model's own fields. Only `clearHalted` writes `halted`, and it
clears it. -/
def Obligations.SettersAreExact : Prop :=
  ∀ (s : State) (v : Byte) (w : Addr) (n : BitVec 64) (f : Flag) (b : Bool),
    s.registers = (s.a, s.x, s.y, s.sp, s.pc, s.p, s.cycles) ∧
    (s.hostSet (.a v)).registers = (v, s.x, s.y, s.sp, s.pc, s.p, s.cycles) ∧
    (s.hostSet (.x v)).registers = (s.a, v, s.y, s.sp, s.pc, s.p, s.cycles) ∧
    (s.hostSet (.y v)).registers = (s.a, s.x, v, s.sp, s.pc, s.p, s.cycles) ∧
    (s.hostSet (.sp v)).registers = (s.a, s.x, s.y, v, s.pc, s.p, s.cycles) ∧
    (s.hostSet (.pc w)).registers = (s.a, s.x, s.y, s.sp, w, s.p, s.cycles) ∧
    (s.hostSet (.p v)).registers = (s.a, s.x, s.y, s.sp, s.pc, v, s.cycles) ∧
    (s.hostSet (.cycles n)).registers = (s.a, s.x, s.y, s.sp, s.pc, s.p, n) ∧
    (s.hostSet (.flag f b)).flag f = b ∧ SameFlagsBut [f] s (s.hostSet (.flag f b)) ∧
    (s.hostSet (.flag f b)).registers =
      (s.a, s.x, s.y, s.sp, s.pc, (s.hostSet (.flag f b)).p, s.cycles) ∧
    (s.hostSet .clearHalted).registers = s.registers ∧ (s.hostSet .clearHalted).halted = false ∧
    ∀ h : HostSet, (h ≠ .clearHalted → (s.hostSet h).halted = s.halted) ∧
      (s.hostSet h).mem = s.mem ∧ (s.hostSet h).irqPending = s.irqPending ∧
      (s.hostSet h).nmiPending = s.nmiPending ∧ (s.hostSet h).romLoaded = s.romLoaded ∧
      (s.hostSet h).events = s.events ∧ (s.hostSet h).kbdBuf = s.kbdBuf ∧
      (s.hostSet h).kbdCur = s.kbdCur ∧ (s.hostSet h).draws = s.draws ∧
      Indicators s.pageCross s.taken (s.hostSet h)
end

