-- ==== Sys2Proof/Laws/State.lean ====
section
/-! SUPPORT. One lemma per field per update of `State`, each true by `rfl`, so that no proof unfolds a
record update. -/

namespace Sys2Proof.Machine.State

variable (s : State)

/-! #### `setA` -/

@[simp] theorem setA_a (v : Byte) : (s.setA v).a = v := rfl
@[simp] theorem setA_x (v : Byte) : (s.setA v).x = s.x := rfl
@[simp] theorem setA_y (v : Byte) : (s.setA v).y = s.y := rfl
@[simp] theorem setA_sp (v : Byte) : (s.setA v).sp = s.sp := rfl
@[simp] theorem setA_p (v : Byte) : (s.setA v).p = s.p := rfl
@[simp] theorem setA_pc (v : Byte) : (s.setA v).pc = s.pc := rfl
@[simp] theorem setA_cycles (v : Byte) : (s.setA v).cycles = s.cycles := rfl
@[simp] theorem setA_irqPending (v : Byte) : (s.setA v).irqPending = s.irqPending := rfl
@[simp] theorem setA_nmiPending (v : Byte) : (s.setA v).nmiPending = s.nmiPending := rfl
@[simp] theorem setA_halted (v : Byte) : (s.setA v).halted = s.halted := rfl
@[simp] theorem setA_romLoaded (v : Byte) : (s.setA v).romLoaded = s.romLoaded := rfl
@[simp] theorem setA_kbdBuf (v : Byte) : (s.setA v).kbdBuf = s.kbdBuf := rfl
@[simp] theorem setA_kbdCur (v : Byte) : (s.setA v).kbdCur = s.kbdCur := rfl
@[simp] theorem setA_events (v : Byte) : (s.setA v).events = s.events := rfl
@[simp] theorem setA_mem (v : Byte) : (s.setA v).mem = s.mem := rfl
@[simp] theorem setA_pageCross (v : Byte) : (s.setA v).pageCross = s.pageCross := rfl
@[simp] theorem setA_taken (v : Byte) : (s.setA v).taken = s.taken := rfl
@[simp] theorem setA_draws (v : Byte) : (s.setA v).draws = s.draws := rfl

/-! #### `setX` -/

@[simp] theorem setX_a (v : Byte) : (s.setX v).a = s.a := rfl
@[simp] theorem setX_x (v : Byte) : (s.setX v).x = v := rfl
@[simp] theorem setX_y (v : Byte) : (s.setX v).y = s.y := rfl
@[simp] theorem setX_sp (v : Byte) : (s.setX v).sp = s.sp := rfl
@[simp] theorem setX_p (v : Byte) : (s.setX v).p = s.p := rfl
@[simp] theorem setX_pc (v : Byte) : (s.setX v).pc = s.pc := rfl
@[simp] theorem setX_cycles (v : Byte) : (s.setX v).cycles = s.cycles := rfl
@[simp] theorem setX_irqPending (v : Byte) : (s.setX v).irqPending = s.irqPending := rfl
@[simp] theorem setX_nmiPending (v : Byte) : (s.setX v).nmiPending = s.nmiPending := rfl
@[simp] theorem setX_halted (v : Byte) : (s.setX v).halted = s.halted := rfl
@[simp] theorem setX_romLoaded (v : Byte) : (s.setX v).romLoaded = s.romLoaded := rfl
@[simp] theorem setX_kbdBuf (v : Byte) : (s.setX v).kbdBuf = s.kbdBuf := rfl
@[simp] theorem setX_kbdCur (v : Byte) : (s.setX v).kbdCur = s.kbdCur := rfl
@[simp] theorem setX_events (v : Byte) : (s.setX v).events = s.events := rfl
@[simp] theorem setX_mem (v : Byte) : (s.setX v).mem = s.mem := rfl
@[simp] theorem setX_pageCross (v : Byte) : (s.setX v).pageCross = s.pageCross := rfl
@[simp] theorem setX_taken (v : Byte) : (s.setX v).taken = s.taken := rfl
@[simp] theorem setX_draws (v : Byte) : (s.setX v).draws = s.draws := rfl

/-! #### `setY` -/

@[simp] theorem setY_a (v : Byte) : (s.setY v).a = s.a := rfl
@[simp] theorem setY_x (v : Byte) : (s.setY v).x = s.x := rfl
@[simp] theorem setY_y (v : Byte) : (s.setY v).y = v := rfl
@[simp] theorem setY_sp (v : Byte) : (s.setY v).sp = s.sp := rfl
@[simp] theorem setY_p (v : Byte) : (s.setY v).p = s.p := rfl
@[simp] theorem setY_pc (v : Byte) : (s.setY v).pc = s.pc := rfl
@[simp] theorem setY_cycles (v : Byte) : (s.setY v).cycles = s.cycles := rfl
@[simp] theorem setY_irqPending (v : Byte) : (s.setY v).irqPending = s.irqPending := rfl
@[simp] theorem setY_nmiPending (v : Byte) : (s.setY v).nmiPending = s.nmiPending := rfl
@[simp] theorem setY_halted (v : Byte) : (s.setY v).halted = s.halted := rfl
@[simp] theorem setY_romLoaded (v : Byte) : (s.setY v).romLoaded = s.romLoaded := rfl
@[simp] theorem setY_kbdBuf (v : Byte) : (s.setY v).kbdBuf = s.kbdBuf := rfl
@[simp] theorem setY_kbdCur (v : Byte) : (s.setY v).kbdCur = s.kbdCur := rfl
@[simp] theorem setY_events (v : Byte) : (s.setY v).events = s.events := rfl
@[simp] theorem setY_mem (v : Byte) : (s.setY v).mem = s.mem := rfl
@[simp] theorem setY_pageCross (v : Byte) : (s.setY v).pageCross = s.pageCross := rfl
@[simp] theorem setY_taken (v : Byte) : (s.setY v).taken = s.taken := rfl
@[simp] theorem setY_draws (v : Byte) : (s.setY v).draws = s.draws := rfl

/-! #### `setSp` -/

@[simp] theorem setSp_a (v : Byte) : (s.setSp v).a = s.a := rfl
@[simp] theorem setSp_x (v : Byte) : (s.setSp v).x = s.x := rfl
@[simp] theorem setSp_y (v : Byte) : (s.setSp v).y = s.y := rfl
@[simp] theorem setSp_sp (v : Byte) : (s.setSp v).sp = v := rfl
@[simp] theorem setSp_p (v : Byte) : (s.setSp v).p = s.p := rfl
@[simp] theorem setSp_pc (v : Byte) : (s.setSp v).pc = s.pc := rfl
@[simp] theorem setSp_cycles (v : Byte) : (s.setSp v).cycles = s.cycles := rfl
@[simp] theorem setSp_irqPending (v : Byte) : (s.setSp v).irqPending = s.irqPending := rfl
@[simp] theorem setSp_nmiPending (v : Byte) : (s.setSp v).nmiPending = s.nmiPending := rfl
@[simp] theorem setSp_halted (v : Byte) : (s.setSp v).halted = s.halted := rfl
@[simp] theorem setSp_romLoaded (v : Byte) : (s.setSp v).romLoaded = s.romLoaded := rfl
@[simp] theorem setSp_kbdBuf (v : Byte) : (s.setSp v).kbdBuf = s.kbdBuf := rfl
@[simp] theorem setSp_kbdCur (v : Byte) : (s.setSp v).kbdCur = s.kbdCur := rfl
@[simp] theorem setSp_events (v : Byte) : (s.setSp v).events = s.events := rfl
@[simp] theorem setSp_mem (v : Byte) : (s.setSp v).mem = s.mem := rfl
@[simp] theorem setSp_pageCross (v : Byte) : (s.setSp v).pageCross = s.pageCross := rfl
@[simp] theorem setSp_taken (v : Byte) : (s.setSp v).taken = s.taken := rfl
@[simp] theorem setSp_draws (v : Byte) : (s.setSp v).draws = s.draws := rfl

/-! #### `setP` -/

@[simp] theorem setP_a (v : Byte) : (s.setP v).a = s.a := rfl
@[simp] theorem setP_x (v : Byte) : (s.setP v).x = s.x := rfl
@[simp] theorem setP_y (v : Byte) : (s.setP v).y = s.y := rfl
@[simp] theorem setP_sp (v : Byte) : (s.setP v).sp = s.sp := rfl
@[simp] theorem setP_p (v : Byte) : (s.setP v).p = v := rfl
@[simp] theorem setP_pc (v : Byte) : (s.setP v).pc = s.pc := rfl
@[simp] theorem setP_cycles (v : Byte) : (s.setP v).cycles = s.cycles := rfl
@[simp] theorem setP_irqPending (v : Byte) : (s.setP v).irqPending = s.irqPending := rfl
@[simp] theorem setP_nmiPending (v : Byte) : (s.setP v).nmiPending = s.nmiPending := rfl
@[simp] theorem setP_halted (v : Byte) : (s.setP v).halted = s.halted := rfl
@[simp] theorem setP_romLoaded (v : Byte) : (s.setP v).romLoaded = s.romLoaded := rfl
@[simp] theorem setP_kbdBuf (v : Byte) : (s.setP v).kbdBuf = s.kbdBuf := rfl
@[simp] theorem setP_kbdCur (v : Byte) : (s.setP v).kbdCur = s.kbdCur := rfl
@[simp] theorem setP_events (v : Byte) : (s.setP v).events = s.events := rfl
@[simp] theorem setP_mem (v : Byte) : (s.setP v).mem = s.mem := rfl
@[simp] theorem setP_pageCross (v : Byte) : (s.setP v).pageCross = s.pageCross := rfl
@[simp] theorem setP_taken (v : Byte) : (s.setP v).taken = s.taken := rfl
@[simp] theorem setP_draws (v : Byte) : (s.setP v).draws = s.draws := rfl

/-! #### `setPc` -/

@[simp] theorem setPc_a (v : Addr) : (s.setPc v).a = s.a := rfl
@[simp] theorem setPc_x (v : Addr) : (s.setPc v).x = s.x := rfl
@[simp] theorem setPc_y (v : Addr) : (s.setPc v).y = s.y := rfl
@[simp] theorem setPc_sp (v : Addr) : (s.setPc v).sp = s.sp := rfl
@[simp] theorem setPc_p (v : Addr) : (s.setPc v).p = s.p := rfl
@[simp] theorem setPc_pc (v : Addr) : (s.setPc v).pc = v := rfl
@[simp] theorem setPc_cycles (v : Addr) : (s.setPc v).cycles = s.cycles := rfl
@[simp] theorem setPc_irqPending (v : Addr) : (s.setPc v).irqPending = s.irqPending := rfl
@[simp] theorem setPc_nmiPending (v : Addr) : (s.setPc v).nmiPending = s.nmiPending := rfl
@[simp] theorem setPc_halted (v : Addr) : (s.setPc v).halted = s.halted := rfl
@[simp] theorem setPc_romLoaded (v : Addr) : (s.setPc v).romLoaded = s.romLoaded := rfl
@[simp] theorem setPc_kbdBuf (v : Addr) : (s.setPc v).kbdBuf = s.kbdBuf := rfl
@[simp] theorem setPc_kbdCur (v : Addr) : (s.setPc v).kbdCur = s.kbdCur := rfl
@[simp] theorem setPc_events (v : Addr) : (s.setPc v).events = s.events := rfl
@[simp] theorem setPc_mem (v : Addr) : (s.setPc v).mem = s.mem := rfl
@[simp] theorem setPc_pageCross (v : Addr) : (s.setPc v).pageCross = s.pageCross := rfl
@[simp] theorem setPc_taken (v : Addr) : (s.setPc v).taken = s.taken := rfl
@[simp] theorem setPc_draws (v : Addr) : (s.setPc v).draws = s.draws := rfl

/-! #### `setCycles` -/

@[simp] theorem setCycles_a (v : BitVec 64) : (s.setCycles v).a = s.a := rfl
@[simp] theorem setCycles_x (v : BitVec 64) : (s.setCycles v).x = s.x := rfl
@[simp] theorem setCycles_y (v : BitVec 64) : (s.setCycles v).y = s.y := rfl
@[simp] theorem setCycles_sp (v : BitVec 64) : (s.setCycles v).sp = s.sp := rfl
@[simp] theorem setCycles_p (v : BitVec 64) : (s.setCycles v).p = s.p := rfl
@[simp] theorem setCycles_pc (v : BitVec 64) : (s.setCycles v).pc = s.pc := rfl
@[simp] theorem setCycles_cycles (v : BitVec 64) : (s.setCycles v).cycles = v := rfl
@[simp] theorem setCycles_irqPending (v : BitVec 64) : (s.setCycles v).irqPending = s.irqPending := rfl
@[simp] theorem setCycles_nmiPending (v : BitVec 64) : (s.setCycles v).nmiPending = s.nmiPending := rfl
@[simp] theorem setCycles_halted (v : BitVec 64) : (s.setCycles v).halted = s.halted := rfl
@[simp] theorem setCycles_romLoaded (v : BitVec 64) : (s.setCycles v).romLoaded = s.romLoaded := rfl
@[simp] theorem setCycles_kbdBuf (v : BitVec 64) : (s.setCycles v).kbdBuf = s.kbdBuf := rfl
@[simp] theorem setCycles_kbdCur (v : BitVec 64) : (s.setCycles v).kbdCur = s.kbdCur := rfl
@[simp] theorem setCycles_events (v : BitVec 64) : (s.setCycles v).events = s.events := rfl
@[simp] theorem setCycles_mem (v : BitVec 64) : (s.setCycles v).mem = s.mem := rfl
@[simp] theorem setCycles_pageCross (v : BitVec 64) : (s.setCycles v).pageCross = s.pageCross := rfl
@[simp] theorem setCycles_taken (v : BitVec 64) : (s.setCycles v).taken = s.taken := rfl
@[simp] theorem setCycles_draws (v : BitVec 64) : (s.setCycles v).draws = s.draws := rfl

/-! #### `setIrqPending` -/

@[simp] theorem setIrqPending_a (b : Bool) : (s.setIrqPending b).a = s.a := rfl
@[simp] theorem setIrqPending_x (b : Bool) : (s.setIrqPending b).x = s.x := rfl
@[simp] theorem setIrqPending_y (b : Bool) : (s.setIrqPending b).y = s.y := rfl
@[simp] theorem setIrqPending_sp (b : Bool) : (s.setIrqPending b).sp = s.sp := rfl
@[simp] theorem setIrqPending_p (b : Bool) : (s.setIrqPending b).p = s.p := rfl
@[simp] theorem setIrqPending_pc (b : Bool) : (s.setIrqPending b).pc = s.pc := rfl
@[simp] theorem setIrqPending_cycles (b : Bool) : (s.setIrqPending b).cycles = s.cycles := rfl
@[simp] theorem setIrqPending_irqPending (b : Bool) : (s.setIrqPending b).irqPending = b := rfl
@[simp] theorem setIrqPending_nmiPending (b : Bool) : (s.setIrqPending b).nmiPending = s.nmiPending := rfl
@[simp] theorem setIrqPending_halted (b : Bool) : (s.setIrqPending b).halted = s.halted := rfl
@[simp] theorem setIrqPending_romLoaded (b : Bool) : (s.setIrqPending b).romLoaded = s.romLoaded := rfl
@[simp] theorem setIrqPending_kbdBuf (b : Bool) : (s.setIrqPending b).kbdBuf = s.kbdBuf := rfl
@[simp] theorem setIrqPending_kbdCur (b : Bool) : (s.setIrqPending b).kbdCur = s.kbdCur := rfl
@[simp] theorem setIrqPending_events (b : Bool) : (s.setIrqPending b).events = s.events := rfl
@[simp] theorem setIrqPending_mem (b : Bool) : (s.setIrqPending b).mem = s.mem := rfl
@[simp] theorem setIrqPending_pageCross (b : Bool) : (s.setIrqPending b).pageCross = s.pageCross := rfl
@[simp] theorem setIrqPending_taken (b : Bool) : (s.setIrqPending b).taken = s.taken := rfl
@[simp] theorem setIrqPending_draws (b : Bool) : (s.setIrqPending b).draws = s.draws := rfl

/-! #### `setNmiPending` -/

@[simp] theorem setNmiPending_a (b : Bool) : (s.setNmiPending b).a = s.a := rfl
@[simp] theorem setNmiPending_x (b : Bool) : (s.setNmiPending b).x = s.x := rfl
@[simp] theorem setNmiPending_y (b : Bool) : (s.setNmiPending b).y = s.y := rfl
@[simp] theorem setNmiPending_sp (b : Bool) : (s.setNmiPending b).sp = s.sp := rfl
@[simp] theorem setNmiPending_p (b : Bool) : (s.setNmiPending b).p = s.p := rfl
@[simp] theorem setNmiPending_pc (b : Bool) : (s.setNmiPending b).pc = s.pc := rfl
@[simp] theorem setNmiPending_cycles (b : Bool) : (s.setNmiPending b).cycles = s.cycles := rfl
@[simp] theorem setNmiPending_irqPending (b : Bool) : (s.setNmiPending b).irqPending = s.irqPending := rfl
@[simp] theorem setNmiPending_nmiPending (b : Bool) : (s.setNmiPending b).nmiPending = b := rfl
@[simp] theorem setNmiPending_halted (b : Bool) : (s.setNmiPending b).halted = s.halted := rfl
@[simp] theorem setNmiPending_romLoaded (b : Bool) : (s.setNmiPending b).romLoaded = s.romLoaded := rfl
@[simp] theorem setNmiPending_kbdBuf (b : Bool) : (s.setNmiPending b).kbdBuf = s.kbdBuf := rfl
@[simp] theorem setNmiPending_kbdCur (b : Bool) : (s.setNmiPending b).kbdCur = s.kbdCur := rfl
@[simp] theorem setNmiPending_events (b : Bool) : (s.setNmiPending b).events = s.events := rfl
@[simp] theorem setNmiPending_mem (b : Bool) : (s.setNmiPending b).mem = s.mem := rfl
@[simp] theorem setNmiPending_pageCross (b : Bool) : (s.setNmiPending b).pageCross = s.pageCross := rfl
@[simp] theorem setNmiPending_taken (b : Bool) : (s.setNmiPending b).taken = s.taken := rfl
@[simp] theorem setNmiPending_draws (b : Bool) : (s.setNmiPending b).draws = s.draws := rfl

/-! #### `setHalted` -/

@[simp] theorem setHalted_a (b : Bool) : (s.setHalted b).a = s.a := rfl
@[simp] theorem setHalted_x (b : Bool) : (s.setHalted b).x = s.x := rfl
@[simp] theorem setHalted_y (b : Bool) : (s.setHalted b).y = s.y := rfl
@[simp] theorem setHalted_sp (b : Bool) : (s.setHalted b).sp = s.sp := rfl
@[simp] theorem setHalted_p (b : Bool) : (s.setHalted b).p = s.p := rfl
@[simp] theorem setHalted_pc (b : Bool) : (s.setHalted b).pc = s.pc := rfl
@[simp] theorem setHalted_cycles (b : Bool) : (s.setHalted b).cycles = s.cycles := rfl
@[simp] theorem setHalted_irqPending (b : Bool) : (s.setHalted b).irqPending = s.irqPending := rfl
@[simp] theorem setHalted_nmiPending (b : Bool) : (s.setHalted b).nmiPending = s.nmiPending := rfl
@[simp] theorem setHalted_halted (b : Bool) : (s.setHalted b).halted = b := rfl
@[simp] theorem setHalted_romLoaded (b : Bool) : (s.setHalted b).romLoaded = s.romLoaded := rfl
@[simp] theorem setHalted_kbdBuf (b : Bool) : (s.setHalted b).kbdBuf = s.kbdBuf := rfl
@[simp] theorem setHalted_kbdCur (b : Bool) : (s.setHalted b).kbdCur = s.kbdCur := rfl
@[simp] theorem setHalted_events (b : Bool) : (s.setHalted b).events = s.events := rfl
@[simp] theorem setHalted_mem (b : Bool) : (s.setHalted b).mem = s.mem := rfl
@[simp] theorem setHalted_pageCross (b : Bool) : (s.setHalted b).pageCross = s.pageCross := rfl
@[simp] theorem setHalted_taken (b : Bool) : (s.setHalted b).taken = s.taken := rfl
@[simp] theorem setHalted_draws (b : Bool) : (s.setHalted b).draws = s.draws := rfl

/-! #### `setRomLoaded` -/

@[simp] theorem setRomLoaded_a (b : Bool) : (s.setRomLoaded b).a = s.a := rfl
@[simp] theorem setRomLoaded_x (b : Bool) : (s.setRomLoaded b).x = s.x := rfl
@[simp] theorem setRomLoaded_y (b : Bool) : (s.setRomLoaded b).y = s.y := rfl
@[simp] theorem setRomLoaded_sp (b : Bool) : (s.setRomLoaded b).sp = s.sp := rfl
@[simp] theorem setRomLoaded_p (b : Bool) : (s.setRomLoaded b).p = s.p := rfl
@[simp] theorem setRomLoaded_pc (b : Bool) : (s.setRomLoaded b).pc = s.pc := rfl
@[simp] theorem setRomLoaded_cycles (b : Bool) : (s.setRomLoaded b).cycles = s.cycles := rfl
@[simp] theorem setRomLoaded_irqPending (b : Bool) : (s.setRomLoaded b).irqPending = s.irqPending := rfl
@[simp] theorem setRomLoaded_nmiPending (b : Bool) : (s.setRomLoaded b).nmiPending = s.nmiPending := rfl
@[simp] theorem setRomLoaded_halted (b : Bool) : (s.setRomLoaded b).halted = s.halted := rfl
@[simp] theorem setRomLoaded_romLoaded (b : Bool) : (s.setRomLoaded b).romLoaded = b := rfl
@[simp] theorem setRomLoaded_kbdBuf (b : Bool) : (s.setRomLoaded b).kbdBuf = s.kbdBuf := rfl
@[simp] theorem setRomLoaded_kbdCur (b : Bool) : (s.setRomLoaded b).kbdCur = s.kbdCur := rfl
@[simp] theorem setRomLoaded_events (b : Bool) : (s.setRomLoaded b).events = s.events := rfl
@[simp] theorem setRomLoaded_mem (b : Bool) : (s.setRomLoaded b).mem = s.mem := rfl
@[simp] theorem setRomLoaded_pageCross (b : Bool) : (s.setRomLoaded b).pageCross = s.pageCross := rfl
@[simp] theorem setRomLoaded_taken (b : Bool) : (s.setRomLoaded b).taken = s.taken := rfl
@[simp] theorem setRomLoaded_draws (b : Bool) : (s.setRomLoaded b).draws = s.draws := rfl

/-! #### `setKbdBuf` -/

@[simp] theorem setKbdBuf_a (ks : List Byte) : (s.setKbdBuf ks).a = s.a := rfl
@[simp] theorem setKbdBuf_x (ks : List Byte) : (s.setKbdBuf ks).x = s.x := rfl
@[simp] theorem setKbdBuf_y (ks : List Byte) : (s.setKbdBuf ks).y = s.y := rfl
@[simp] theorem setKbdBuf_sp (ks : List Byte) : (s.setKbdBuf ks).sp = s.sp := rfl
@[simp] theorem setKbdBuf_p (ks : List Byte) : (s.setKbdBuf ks).p = s.p := rfl
@[simp] theorem setKbdBuf_pc (ks : List Byte) : (s.setKbdBuf ks).pc = s.pc := rfl
@[simp] theorem setKbdBuf_cycles (ks : List Byte) : (s.setKbdBuf ks).cycles = s.cycles := rfl
@[simp] theorem setKbdBuf_irqPending (ks : List Byte) : (s.setKbdBuf ks).irqPending = s.irqPending := rfl
@[simp] theorem setKbdBuf_nmiPending (ks : List Byte) : (s.setKbdBuf ks).nmiPending = s.nmiPending := rfl
@[simp] theorem setKbdBuf_halted (ks : List Byte) : (s.setKbdBuf ks).halted = s.halted := rfl
@[simp] theorem setKbdBuf_romLoaded (ks : List Byte) : (s.setKbdBuf ks).romLoaded = s.romLoaded := rfl
@[simp] theorem setKbdBuf_kbdBuf (ks : List Byte) : (s.setKbdBuf ks).kbdBuf = ks := rfl
@[simp] theorem setKbdBuf_kbdCur (ks : List Byte) : (s.setKbdBuf ks).kbdCur = s.kbdCur := rfl
@[simp] theorem setKbdBuf_events (ks : List Byte) : (s.setKbdBuf ks).events = s.events := rfl
@[simp] theorem setKbdBuf_mem (ks : List Byte) : (s.setKbdBuf ks).mem = s.mem := rfl
@[simp] theorem setKbdBuf_pageCross (ks : List Byte) : (s.setKbdBuf ks).pageCross = s.pageCross := rfl
@[simp] theorem setKbdBuf_taken (ks : List Byte) : (s.setKbdBuf ks).taken = s.taken := rfl
@[simp] theorem setKbdBuf_draws (ks : List Byte) : (s.setKbdBuf ks).draws = s.draws := rfl

/-! #### `setKbdCur` -/

@[simp] theorem setKbdCur_a (n : Nat) : (s.setKbdCur n).a = s.a := rfl
@[simp] theorem setKbdCur_x (n : Nat) : (s.setKbdCur n).x = s.x := rfl
@[simp] theorem setKbdCur_y (n : Nat) : (s.setKbdCur n).y = s.y := rfl
@[simp] theorem setKbdCur_sp (n : Nat) : (s.setKbdCur n).sp = s.sp := rfl
@[simp] theorem setKbdCur_p (n : Nat) : (s.setKbdCur n).p = s.p := rfl
@[simp] theorem setKbdCur_pc (n : Nat) : (s.setKbdCur n).pc = s.pc := rfl
@[simp] theorem setKbdCur_cycles (n : Nat) : (s.setKbdCur n).cycles = s.cycles := rfl
@[simp] theorem setKbdCur_irqPending (n : Nat) : (s.setKbdCur n).irqPending = s.irqPending := rfl
@[simp] theorem setKbdCur_nmiPending (n : Nat) : (s.setKbdCur n).nmiPending = s.nmiPending := rfl
@[simp] theorem setKbdCur_halted (n : Nat) : (s.setKbdCur n).halted = s.halted := rfl
@[simp] theorem setKbdCur_romLoaded (n : Nat) : (s.setKbdCur n).romLoaded = s.romLoaded := rfl
@[simp] theorem setKbdCur_kbdBuf (n : Nat) : (s.setKbdCur n).kbdBuf = s.kbdBuf := rfl
@[simp] theorem setKbdCur_kbdCur (n : Nat) : (s.setKbdCur n).kbdCur = n := rfl
@[simp] theorem setKbdCur_events (n : Nat) : (s.setKbdCur n).events = s.events := rfl
@[simp] theorem setKbdCur_mem (n : Nat) : (s.setKbdCur n).mem = s.mem := rfl
@[simp] theorem setKbdCur_pageCross (n : Nat) : (s.setKbdCur n).pageCross = s.pageCross := rfl
@[simp] theorem setKbdCur_taken (n : Nat) : (s.setKbdCur n).taken = s.taken := rfl
@[simp] theorem setKbdCur_draws (n : Nat) : (s.setKbdCur n).draws = s.draws := rfl

/-! #### `setEvents` -/

@[simp] theorem setEvents_a (es : List Event) : (s.setEvents es).a = s.a := rfl
@[simp] theorem setEvents_x (es : List Event) : (s.setEvents es).x = s.x := rfl
@[simp] theorem setEvents_y (es : List Event) : (s.setEvents es).y = s.y := rfl
@[simp] theorem setEvents_sp (es : List Event) : (s.setEvents es).sp = s.sp := rfl
@[simp] theorem setEvents_p (es : List Event) : (s.setEvents es).p = s.p := rfl
@[simp] theorem setEvents_pc (es : List Event) : (s.setEvents es).pc = s.pc := rfl
@[simp] theorem setEvents_cycles (es : List Event) : (s.setEvents es).cycles = s.cycles := rfl
@[simp] theorem setEvents_irqPending (es : List Event) : (s.setEvents es).irqPending = s.irqPending := rfl
@[simp] theorem setEvents_nmiPending (es : List Event) : (s.setEvents es).nmiPending = s.nmiPending := rfl
@[simp] theorem setEvents_halted (es : List Event) : (s.setEvents es).halted = s.halted := rfl
@[simp] theorem setEvents_romLoaded (es : List Event) : (s.setEvents es).romLoaded = s.romLoaded := rfl
@[simp] theorem setEvents_kbdBuf (es : List Event) : (s.setEvents es).kbdBuf = s.kbdBuf := rfl
@[simp] theorem setEvents_kbdCur (es : List Event) : (s.setEvents es).kbdCur = s.kbdCur := rfl
@[simp] theorem setEvents_events (es : List Event) : (s.setEvents es).events = es := rfl
@[simp] theorem setEvents_mem (es : List Event) : (s.setEvents es).mem = s.mem := rfl
@[simp] theorem setEvents_pageCross (es : List Event) : (s.setEvents es).pageCross = s.pageCross := rfl
@[simp] theorem setEvents_taken (es : List Event) : (s.setEvents es).taken = s.taken := rfl
@[simp] theorem setEvents_draws (es : List Event) : (s.setEvents es).draws = s.draws := rfl

/-! #### `setMem` -/

@[simp] theorem setMem_a (m : Memory) : (s.setMem m).a = s.a := rfl
@[simp] theorem setMem_x (m : Memory) : (s.setMem m).x = s.x := rfl
@[simp] theorem setMem_y (m : Memory) : (s.setMem m).y = s.y := rfl
@[simp] theorem setMem_sp (m : Memory) : (s.setMem m).sp = s.sp := rfl
@[simp] theorem setMem_p (m : Memory) : (s.setMem m).p = s.p := rfl
@[simp] theorem setMem_pc (m : Memory) : (s.setMem m).pc = s.pc := rfl
@[simp] theorem setMem_cycles (m : Memory) : (s.setMem m).cycles = s.cycles := rfl
@[simp] theorem setMem_irqPending (m : Memory) : (s.setMem m).irqPending = s.irqPending := rfl
@[simp] theorem setMem_nmiPending (m : Memory) : (s.setMem m).nmiPending = s.nmiPending := rfl
@[simp] theorem setMem_halted (m : Memory) : (s.setMem m).halted = s.halted := rfl
@[simp] theorem setMem_romLoaded (m : Memory) : (s.setMem m).romLoaded = s.romLoaded := rfl
@[simp] theorem setMem_kbdBuf (m : Memory) : (s.setMem m).kbdBuf = s.kbdBuf := rfl
@[simp] theorem setMem_kbdCur (m : Memory) : (s.setMem m).kbdCur = s.kbdCur := rfl
@[simp] theorem setMem_events (m : Memory) : (s.setMem m).events = s.events := rfl
@[simp] theorem setMem_mem (m : Memory) : (s.setMem m).mem = m := rfl
@[simp] theorem setMem_pageCross (m : Memory) : (s.setMem m).pageCross = s.pageCross := rfl
@[simp] theorem setMem_taken (m : Memory) : (s.setMem m).taken = s.taken := rfl
@[simp] theorem setMem_draws (m : Memory) : (s.setMem m).draws = s.draws := rfl

/-! #### `setPageCross` -/

@[simp] theorem setPageCross_a (b : Bool) : (s.setPageCross b).a = s.a := rfl
@[simp] theorem setPageCross_x (b : Bool) : (s.setPageCross b).x = s.x := rfl
@[simp] theorem setPageCross_y (b : Bool) : (s.setPageCross b).y = s.y := rfl
@[simp] theorem setPageCross_sp (b : Bool) : (s.setPageCross b).sp = s.sp := rfl
@[simp] theorem setPageCross_p (b : Bool) : (s.setPageCross b).p = s.p := rfl
@[simp] theorem setPageCross_pc (b : Bool) : (s.setPageCross b).pc = s.pc := rfl
@[simp] theorem setPageCross_cycles (b : Bool) : (s.setPageCross b).cycles = s.cycles := rfl
@[simp] theorem setPageCross_irqPending (b : Bool) : (s.setPageCross b).irqPending = s.irqPending := rfl
@[simp] theorem setPageCross_nmiPending (b : Bool) : (s.setPageCross b).nmiPending = s.nmiPending := rfl
@[simp] theorem setPageCross_halted (b : Bool) : (s.setPageCross b).halted = s.halted := rfl
@[simp] theorem setPageCross_romLoaded (b : Bool) : (s.setPageCross b).romLoaded = s.romLoaded := rfl
@[simp] theorem setPageCross_kbdBuf (b : Bool) : (s.setPageCross b).kbdBuf = s.kbdBuf := rfl
@[simp] theorem setPageCross_kbdCur (b : Bool) : (s.setPageCross b).kbdCur = s.kbdCur := rfl
@[simp] theorem setPageCross_events (b : Bool) : (s.setPageCross b).events = s.events := rfl
@[simp] theorem setPageCross_mem (b : Bool) : (s.setPageCross b).mem = s.mem := rfl
@[simp] theorem setPageCross_pageCross (b : Bool) : (s.setPageCross b).pageCross = b := rfl
@[simp] theorem setPageCross_taken (b : Bool) : (s.setPageCross b).taken = s.taken := rfl
@[simp] theorem setPageCross_draws (b : Bool) : (s.setPageCross b).draws = s.draws := rfl

/-! #### `setTaken` -/

@[simp] theorem setTaken_a (b : Bool) : (s.setTaken b).a = s.a := rfl
@[simp] theorem setTaken_x (b : Bool) : (s.setTaken b).x = s.x := rfl
@[simp] theorem setTaken_y (b : Bool) : (s.setTaken b).y = s.y := rfl
@[simp] theorem setTaken_sp (b : Bool) : (s.setTaken b).sp = s.sp := rfl
@[simp] theorem setTaken_p (b : Bool) : (s.setTaken b).p = s.p := rfl
@[simp] theorem setTaken_pc (b : Bool) : (s.setTaken b).pc = s.pc := rfl
@[simp] theorem setTaken_cycles (b : Bool) : (s.setTaken b).cycles = s.cycles := rfl
@[simp] theorem setTaken_irqPending (b : Bool) : (s.setTaken b).irqPending = s.irqPending := rfl
@[simp] theorem setTaken_nmiPending (b : Bool) : (s.setTaken b).nmiPending = s.nmiPending := rfl
@[simp] theorem setTaken_halted (b : Bool) : (s.setTaken b).halted = s.halted := rfl
@[simp] theorem setTaken_romLoaded (b : Bool) : (s.setTaken b).romLoaded = s.romLoaded := rfl
@[simp] theorem setTaken_kbdBuf (b : Bool) : (s.setTaken b).kbdBuf = s.kbdBuf := rfl
@[simp] theorem setTaken_kbdCur (b : Bool) : (s.setTaken b).kbdCur = s.kbdCur := rfl
@[simp] theorem setTaken_events (b : Bool) : (s.setTaken b).events = s.events := rfl
@[simp] theorem setTaken_mem (b : Bool) : (s.setTaken b).mem = s.mem := rfl
@[simp] theorem setTaken_pageCross (b : Bool) : (s.setTaken b).pageCross = s.pageCross := rfl
@[simp] theorem setTaken_taken (b : Bool) : (s.setTaken b).taken = b := rfl
@[simp] theorem setTaken_draws (b : Bool) : (s.setTaken b).draws = s.draws := rfl

/-! #### `setDraws` -/

@[simp] theorem setDraws_a (n : Nat) : (s.setDraws n).a = s.a := rfl
@[simp] theorem setDraws_x (n : Nat) : (s.setDraws n).x = s.x := rfl
@[simp] theorem setDraws_y (n : Nat) : (s.setDraws n).y = s.y := rfl
@[simp] theorem setDraws_sp (n : Nat) : (s.setDraws n).sp = s.sp := rfl
@[simp] theorem setDraws_p (n : Nat) : (s.setDraws n).p = s.p := rfl
@[simp] theorem setDraws_pc (n : Nat) : (s.setDraws n).pc = s.pc := rfl
@[simp] theorem setDraws_cycles (n : Nat) : (s.setDraws n).cycles = s.cycles := rfl
@[simp] theorem setDraws_irqPending (n : Nat) : (s.setDraws n).irqPending = s.irqPending := rfl
@[simp] theorem setDraws_nmiPending (n : Nat) : (s.setDraws n).nmiPending = s.nmiPending := rfl
@[simp] theorem setDraws_halted (n : Nat) : (s.setDraws n).halted = s.halted := rfl
@[simp] theorem setDraws_romLoaded (n : Nat) : (s.setDraws n).romLoaded = s.romLoaded := rfl
@[simp] theorem setDraws_kbdBuf (n : Nat) : (s.setDraws n).kbdBuf = s.kbdBuf := rfl
@[simp] theorem setDraws_kbdCur (n : Nat) : (s.setDraws n).kbdCur = s.kbdCur := rfl
@[simp] theorem setDraws_events (n : Nat) : (s.setDraws n).events = s.events := rfl
@[simp] theorem setDraws_mem (n : Nat) : (s.setDraws n).mem = s.mem := rfl
@[simp] theorem setDraws_pageCross (n : Nat) : (s.setDraws n).pageCross = s.pageCross := rfl
@[simp] theorem setDraws_taken (n : Nat) : (s.setDraws n).taken = s.taken := rfl
@[simp] theorem setDraws_draws (n : Nat) : (s.setDraws n).draws = n := rfl

end Sys2Proof.Machine.State
end

