-- ==== Sys2Proof/Laws/Flags.lean ====
section
/-! SUPPORT. The laws of the status bits (R26 to R28) and of the register file (R16): reading a bit or a
register after an update. -/

namespace Sys2Proof.Machine

/-! ### Bits -/

/-- `setBit` writes one bit and leaves the others. -/
theorem getLsbD_setBit (p : Byte) (k j : Nat) (b : Bool) (hj : j < 8) :
    (setBit p k b).getLsbD j = if j = k then b else p.getLsbD j := by
  cases b <;> by_cases h : j = k <;> simp [setBit, hj, h, BitVec.getLsbD_twoPow]
  omega

theorem Flag.bit_lt (f : Flag) : f.bit < 8 := by cases f <;> decide

theorem Flag.bit_inj {f g : Flag} : f.bit = g.bit ↔ f = g := by
  cases f <;> cases g <;> decide

theorem Byte.eq_of_flags {p q : Byte} (h : ∀ f : Flag, p.getLsbD f.bit = q.getLsbD f.bit) : p = q := by
  refine BitVec.eq_of_getLsbD_eq fun k hk => ?_
  have hf : ∃ f : Flag, f.bit = k :=
    match k, hk with
    | 0, _ => ⟨.c, rfl⟩ | 1, _ => ⟨.z, rfl⟩ | 2, _ => ⟨.i, rfl⟩ | 3, _ => ⟨.d, rfl⟩
    | 4, _ => ⟨.b, rfl⟩ | 5, _ => ⟨.u, rfl⟩ | 6, _ => ⟨.v, rfl⟩ | 7, _ => ⟨.n, rfl⟩
  obtain ⟨f, rfl⟩ := hf
  exact h f

/-- Bit 7 by its mask (R126). -/
theorem and_80_ne_zero (x : Byte) : (x &&& 0x80#8 != 0) = x.msb := by revert x; decide

/-- The complement by exclusive or (R126, R129). -/
theorem xor_FF (x : Byte) : x ^^^ 0xFF#8 = ~~~x := by revert x; decide

theorem xor_FF_toNat (x : Byte) : (x ^^^ 0xFF#8).toNat = 255 - x.toNat := by revert x; decide

theorem xor_FF_toInt (x : Byte) : (x ^^^ 0xFF#8).toInt = -x.toInt - 1 := by revert x; decide

/-- The bits of a pulled status (R40). -/
theorem getLsbD_pulledStatus (v : Byte) (f : Flag) :
    (pulledStatus v).getLsbD f.bit = if f = .b then false else if f = .u then true else v.getLsbD f.bit := by
  cases f <;> revert v <;> decide

namespace State

variable (s : State)

/-! ### A flag after an update -/

theorem setFlag_eq (f : Flag) (b : Bool) : s.setFlag f b = s.setP (setBit s.p f.bit b) := rfl

@[simp] theorem flag_setFlag (f g : Flag) (b : Bool) :
    (s.setFlag f b).flag g = if g = f then b else s.flag g := by
  simp [setFlag, flag, getLsbD_setBit _ _ _ _ g.bit_lt, Flag.bit_inj]

@[simp] theorem flag_setP (v : Byte) (f : Flag) : (s.setP v).flag f = v.getLsbD f.bit := rfl
@[simp] theorem flag_setA (v : Byte) (f : Flag) : (s.setA v).flag f = s.flag f := rfl
@[simp] theorem flag_setX (v : Byte) (f : Flag) : (s.setX v).flag f = s.flag f := rfl
@[simp] theorem flag_setY (v : Byte) (f : Flag) : (s.setY v).flag f = s.flag f := rfl
@[simp] theorem flag_setSp (v : Byte) (f : Flag) : (s.setSp v).flag f = s.flag f := rfl
@[simp] theorem flag_setPc (v : Addr) (f : Flag) : (s.setPc v).flag f = s.flag f := rfl
@[simp] theorem flag_setCycles (v : BitVec 64) (f : Flag) : (s.setCycles v).flag f = s.flag f := rfl
@[simp] theorem flag_setIrqPending (b : Bool) (f : Flag) : (s.setIrqPending b).flag f = s.flag f := rfl
@[simp] theorem flag_setNmiPending (b : Bool) (f : Flag) : (s.setNmiPending b).flag f = s.flag f := rfl
@[simp] theorem flag_setHalted (b : Bool) (f : Flag) : (s.setHalted b).flag f = s.flag f := rfl
@[simp] theorem flag_setRomLoaded (b : Bool) (f : Flag) : (s.setRomLoaded b).flag f = s.flag f := rfl
@[simp] theorem flag_setKbdBuf (ks : List Byte) (f : Flag) : (s.setKbdBuf ks).flag f = s.flag f := rfl
@[simp] theorem flag_setKbdCur (n : Nat) (f : Flag) : (s.setKbdCur n).flag f = s.flag f := rfl
@[simp] theorem flag_setEvents (es : List Event) (f : Flag) : (s.setEvents es).flag f = s.flag f := rfl
@[simp] theorem flag_setMem (m : Memory) (f : Flag) : (s.setMem m).flag f = s.flag f := rfl
@[simp] theorem flag_setPageCross (b : Bool) (f : Flag) : (s.setPageCross b).flag f = s.flag f := rfl
@[simp] theorem flag_setTaken (b : Bool) (f : Flag) : (s.setTaken b).flag f = s.flag f := rfl
@[simp] theorem flag_setDraws (n : Nat) (f : Flag) : (s.setDraws n).flag f = s.flag f := rfl

/-- States with the same P have the same flags. -/
theorem flag_congr {s t : State} (h : t.p = s.p) (f : Flag) : t.flag f = s.flag f := by
  simp [flag, h]

/-! ### `setFlag` and `updateZN` write P only -/

@[simp] theorem setFlag_a (f : Flag) (b : Bool) : (s.setFlag f b).a = s.a := rfl
@[simp] theorem setFlag_x (f : Flag) (b : Bool) : (s.setFlag f b).x = s.x := rfl
@[simp] theorem setFlag_y (f : Flag) (b : Bool) : (s.setFlag f b).y = s.y := rfl
@[simp] theorem setFlag_sp (f : Flag) (b : Bool) : (s.setFlag f b).sp = s.sp := rfl
@[simp] theorem setFlag_pc (f : Flag) (b : Bool) : (s.setFlag f b).pc = s.pc := rfl
@[simp] theorem setFlag_cycles (f : Flag) (b : Bool) : (s.setFlag f b).cycles = s.cycles := rfl
@[simp] theorem setFlag_irqPending (f : Flag) (b : Bool) : (s.setFlag f b).irqPending = s.irqPending := rfl
@[simp] theorem setFlag_nmiPending (f : Flag) (b : Bool) : (s.setFlag f b).nmiPending = s.nmiPending := rfl
@[simp] theorem setFlag_halted (f : Flag) (b : Bool) : (s.setFlag f b).halted = s.halted := rfl
@[simp] theorem setFlag_romLoaded (f : Flag) (b : Bool) : (s.setFlag f b).romLoaded = s.romLoaded := rfl
@[simp] theorem setFlag_kbdBuf (f : Flag) (b : Bool) : (s.setFlag f b).kbdBuf = s.kbdBuf := rfl
@[simp] theorem setFlag_kbdCur (f : Flag) (b : Bool) : (s.setFlag f b).kbdCur = s.kbdCur := rfl
@[simp] theorem setFlag_events (f : Flag) (b : Bool) : (s.setFlag f b).events = s.events := rfl
@[simp] theorem setFlag_mem (f : Flag) (b : Bool) : (s.setFlag f b).mem = s.mem := rfl
@[simp] theorem setFlag_pageCross (f : Flag) (b : Bool) : (s.setFlag f b).pageCross = s.pageCross := rfl
@[simp] theorem setFlag_taken (f : Flag) (b : Bool) : (s.setFlag f b).taken = s.taken := rfl
@[simp] theorem setFlag_draws (f : Flag) (b : Bool) : (s.setFlag f b).draws = s.draws := rfl

@[simp] theorem updateZN_a (v : Byte) : (s.updateZN v).a = s.a := rfl
@[simp] theorem updateZN_x (v : Byte) : (s.updateZN v).x = s.x := rfl
@[simp] theorem updateZN_y (v : Byte) : (s.updateZN v).y = s.y := rfl
@[simp] theorem updateZN_sp (v : Byte) : (s.updateZN v).sp = s.sp := rfl
@[simp] theorem updateZN_pc (v : Byte) : (s.updateZN v).pc = s.pc := rfl
@[simp] theorem updateZN_cycles (v : Byte) : (s.updateZN v).cycles = s.cycles := rfl
@[simp] theorem updateZN_irqPending (v : Byte) : (s.updateZN v).irqPending = s.irqPending := rfl
@[simp] theorem updateZN_nmiPending (v : Byte) : (s.updateZN v).nmiPending = s.nmiPending := rfl
@[simp] theorem updateZN_halted (v : Byte) : (s.updateZN v).halted = s.halted := rfl
@[simp] theorem updateZN_romLoaded (v : Byte) : (s.updateZN v).romLoaded = s.romLoaded := rfl
@[simp] theorem updateZN_kbdBuf (v : Byte) : (s.updateZN v).kbdBuf = s.kbdBuf := rfl
@[simp] theorem updateZN_kbdCur (v : Byte) : (s.updateZN v).kbdCur = s.kbdCur := rfl
@[simp] theorem updateZN_events (v : Byte) : (s.updateZN v).events = s.events := rfl
@[simp] theorem updateZN_mem (v : Byte) : (s.updateZN v).mem = s.mem := rfl
@[simp] theorem updateZN_pageCross (v : Byte) : (s.updateZN v).pageCross = s.pageCross := rfl
@[simp] theorem updateZN_taken (v : Byte) : (s.updateZN v).taken = s.taken := rfl
@[simp] theorem updateZN_draws (v : Byte) : (s.updateZN v).draws = s.draws := rfl

@[simp] theorem flag_updateZN (v : Byte) (f : Flag) :
    (s.updateZN v).flag f = if f = .n then v.msb else if f = .z then v == 0#8 else s.flag f := by
  simp [updateZN]

/-! ### The register file -/

@[simp] theorem getReg_setReg (r q : Reg) (v : Byte) :
    (s.setReg r v).getReg q = if q = r then v else s.getReg q := by
  cases r <;> cases q <;> rfl

@[simp] theorem getReg_setFlag (f : Flag) (b : Bool) (r : Reg) :
    (s.setFlag f b).getReg r = s.getReg r := by cases r <;> rfl

@[simp] theorem getReg_updateZN (v : Byte) (r : Reg) : (s.updateZN v).getReg r = s.getReg r := by
  cases r <;> rfl

@[simp] theorem flag_setReg (r : Reg) (v : Byte) (f : Flag) : (s.setReg r v).flag f = s.flag f := by
  cases r <;> rfl

@[simp] theorem setReg_sp (r : Reg) (v : Byte) : (s.setReg r v).sp = s.sp := by
  cases r <;> rfl
@[simp] theorem getReg_setSp (w : Byte) (r : Reg) : (s.setSp w).getReg r = s.getReg r := by
  cases r <;> rfl
@[simp] theorem setReg_p (r : Reg) (v : Byte) : (s.setReg r v).p = s.p := by
  cases r <;> rfl
@[simp] theorem getReg_setP (w : Byte) (r : Reg) : (s.setP w).getReg r = s.getReg r := by
  cases r <;> rfl
@[simp] theorem setReg_pc (r : Reg) (v : Byte) : (s.setReg r v).pc = s.pc := by
  cases r <;> rfl
@[simp] theorem getReg_setPc (w : Addr) (r : Reg) : (s.setPc w).getReg r = s.getReg r := by
  cases r <;> rfl
@[simp] theorem setReg_cycles (r : Reg) (v : Byte) : (s.setReg r v).cycles = s.cycles := by
  cases r <;> rfl
@[simp] theorem getReg_setCycles (w : BitVec 64) (r : Reg) : (s.setCycles w).getReg r = s.getReg r := by
  cases r <;> rfl
@[simp] theorem setReg_irqPending (r : Reg) (v : Byte) : (s.setReg r v).irqPending = s.irqPending := by
  cases r <;> rfl
@[simp] theorem getReg_setIrqPending (b : Bool) (r : Reg) : (s.setIrqPending b).getReg r = s.getReg r := by
  cases r <;> rfl
@[simp] theorem setReg_nmiPending (r : Reg) (v : Byte) : (s.setReg r v).nmiPending = s.nmiPending := by
  cases r <;> rfl
@[simp] theorem getReg_setNmiPending (b : Bool) (r : Reg) : (s.setNmiPending b).getReg r = s.getReg r := by
  cases r <;> rfl
@[simp] theorem setReg_halted (r : Reg) (v : Byte) : (s.setReg r v).halted = s.halted := by
  cases r <;> rfl
@[simp] theorem getReg_setHalted (b : Bool) (r : Reg) : (s.setHalted b).getReg r = s.getReg r := by
  cases r <;> rfl
@[simp] theorem setReg_romLoaded (r : Reg) (v : Byte) : (s.setReg r v).romLoaded = s.romLoaded := by
  cases r <;> rfl
@[simp] theorem getReg_setRomLoaded (b : Bool) (r : Reg) : (s.setRomLoaded b).getReg r = s.getReg r := by
  cases r <;> rfl
@[simp] theorem setReg_kbdBuf (r : Reg) (v : Byte) : (s.setReg r v).kbdBuf = s.kbdBuf := by
  cases r <;> rfl
@[simp] theorem getReg_setKbdBuf (ks : List Byte) (r : Reg) : (s.setKbdBuf ks).getReg r = s.getReg r := by
  cases r <;> rfl
@[simp] theorem setReg_kbdCur (r : Reg) (v : Byte) : (s.setReg r v).kbdCur = s.kbdCur := by
  cases r <;> rfl
@[simp] theorem getReg_setKbdCur (n : Nat) (r : Reg) : (s.setKbdCur n).getReg r = s.getReg r := by
  cases r <;> rfl
@[simp] theorem setReg_events (r : Reg) (v : Byte) : (s.setReg r v).events = s.events := by
  cases r <;> rfl
@[simp] theorem getReg_setEvents (es : List Event) (r : Reg) : (s.setEvents es).getReg r = s.getReg r := by
  cases r <;> rfl
@[simp] theorem setReg_mem (r : Reg) (v : Byte) : (s.setReg r v).mem = s.mem := by
  cases r <;> rfl
@[simp] theorem getReg_setMem (m : Memory) (r : Reg) : (s.setMem m).getReg r = s.getReg r := by
  cases r <;> rfl
@[simp] theorem setReg_pageCross (r : Reg) (v : Byte) : (s.setReg r v).pageCross = s.pageCross := by
  cases r <;> rfl
@[simp] theorem getReg_setPageCross (b : Bool) (r : Reg) : (s.setPageCross b).getReg r = s.getReg r := by
  cases r <;> rfl
@[simp] theorem setReg_taken (r : Reg) (v : Byte) : (s.setReg r v).taken = s.taken := by
  cases r <;> rfl
@[simp] theorem getReg_setTaken (b : Bool) (r : Reg) : (s.setTaken b).getReg r = s.getReg r := by
  cases r <;> rfl
@[simp] theorem setReg_draws (r : Reg) (v : Byte) : (s.setReg r v).draws = s.draws := by
  cases r <;> rfl
@[simp] theorem getReg_setDraws (n : Nat) (r : Reg) : (s.setDraws n).getReg r = s.getReg r := by
  cases r <;> rfl
@[simp] theorem getReg_setA (v : Byte) (r : Reg) :
    (s.setA v).getReg r = if r = .a then v else s.getReg r := by cases r <;> rfl
@[simp] theorem getReg_setX (v : Byte) (r : Reg) :
    (s.setX v).getReg r = if r = .x then v else s.getReg r := by cases r <;> rfl
@[simp] theorem getReg_setY (v : Byte) (r : Reg) :
    (s.setY v).getReg r = if r = .y then v else s.getReg r := by cases r <;> rfl

/-! ### A plain store touches memory only -/

@[simp] theorem poke_a (a : Addr) (v : Byte) : (s.poke a v).a = s.a := rfl
@[simp] theorem poke_x (a : Addr) (v : Byte) : (s.poke a v).x = s.x := rfl
@[simp] theorem poke_y (a : Addr) (v : Byte) : (s.poke a v).y = s.y := rfl
@[simp] theorem poke_sp (a : Addr) (v : Byte) : (s.poke a v).sp = s.sp := rfl
@[simp] theorem poke_p (a : Addr) (v : Byte) : (s.poke a v).p = s.p := rfl
@[simp] theorem poke_pc (a : Addr) (v : Byte) : (s.poke a v).pc = s.pc := rfl
@[simp] theorem poke_cycles (a : Addr) (v : Byte) : (s.poke a v).cycles = s.cycles := rfl
@[simp] theorem poke_irqPending (a : Addr) (v : Byte) : (s.poke a v).irqPending = s.irqPending := rfl
@[simp] theorem poke_nmiPending (a : Addr) (v : Byte) : (s.poke a v).nmiPending = s.nmiPending := rfl
@[simp] theorem poke_halted (a : Addr) (v : Byte) : (s.poke a v).halted = s.halted := rfl
@[simp] theorem poke_romLoaded (a : Addr) (v : Byte) : (s.poke a v).romLoaded = s.romLoaded := rfl
@[simp] theorem poke_kbdBuf (a : Addr) (v : Byte) : (s.poke a v).kbdBuf = s.kbdBuf := rfl
@[simp] theorem poke_kbdCur (a : Addr) (v : Byte) : (s.poke a v).kbdCur = s.kbdCur := rfl
@[simp] theorem poke_events (a : Addr) (v : Byte) : (s.poke a v).events = s.events := rfl
@[simp] theorem poke_pageCross (a : Addr) (v : Byte) : (s.poke a v).pageCross = s.pageCross := rfl
@[simp] theorem poke_taken (a : Addr) (v : Byte) : (s.poke a v).taken = s.taken := rfl
@[simp] theorem poke_draws (a : Addr) (v : Byte) : (s.poke a v).draws = s.draws := rfl
@[simp] theorem poke_mem (a : Addr) (v : Byte) : (s.poke a v).mem = s.mem.write a.toNat v := rfl
@[simp] theorem flag_poke (a : Addr) (v : Byte) (f : Flag) : (s.poke a v).flag f = s.flag f := rfl
@[simp] theorem getReg_poke (a : Addr) (v : Byte) (r : Reg) : (s.poke a v).getReg r = s.getReg r := by
  cases r <;> rfl

/-! ### `peek` after an update -/

@[simp] theorem peek_setA (v : Byte) (a : Addr) : (s.setA v).peek a = s.peek a := rfl
@[simp] theorem peek_setX (v : Byte) (a : Addr) : (s.setX v).peek a = s.peek a := rfl
@[simp] theorem peek_setY (v : Byte) (a : Addr) : (s.setY v).peek a = s.peek a := rfl
@[simp] theorem peek_setSp (v : Byte) (a : Addr) : (s.setSp v).peek a = s.peek a := rfl
@[simp] theorem peek_setP (v : Byte) (a : Addr) : (s.setP v).peek a = s.peek a := rfl
@[simp] theorem peek_setPc (v : Addr) (a : Addr) : (s.setPc v).peek a = s.peek a := rfl
@[simp] theorem peek_setCycles (v : BitVec 64) (a : Addr) : (s.setCycles v).peek a = s.peek a := rfl
@[simp] theorem peek_setIrqPending (b : Bool) (a : Addr) : (s.setIrqPending b).peek a = s.peek a := rfl
@[simp] theorem peek_setNmiPending (b : Bool) (a : Addr) : (s.setNmiPending b).peek a = s.peek a := rfl
@[simp] theorem peek_setHalted (b : Bool) (a : Addr) : (s.setHalted b).peek a = s.peek a := rfl
@[simp] theorem peek_setRomLoaded (b : Bool) (a : Addr) : (s.setRomLoaded b).peek a = s.peek a := rfl
@[simp] theorem peek_setKbdBuf (ks : List Byte) (a : Addr) : (s.setKbdBuf ks).peek a = s.peek a := rfl
@[simp] theorem peek_setKbdCur (n : Nat) (a : Addr) : (s.setKbdCur n).peek a = s.peek a := rfl
@[simp] theorem peek_setEvents (es : List Event) (a : Addr) : (s.setEvents es).peek a = s.peek a := rfl
@[simp] theorem peek_setPageCross (b : Bool) (a : Addr) : (s.setPageCross b).peek a = s.peek a := rfl
@[simp] theorem peek_setTaken (b : Bool) (a : Addr) : (s.setTaken b).peek a = s.peek a := rfl
@[simp] theorem peek_setDraws (n : Nat) (a : Addr) : (s.setDraws n).peek a = s.peek a := rfl
@[simp] theorem peek_setMem (m : Memory) (a : Addr) : (s.setMem m).peek a = m.read a.toNat := rfl
@[simp] theorem peek_setFlag (f : Flag) (b : Bool) (a : Addr) : (s.setFlag f b).peek a = s.peek a := rfl
@[simp] theorem peek_updateZN (v : Byte) (a : Addr) : (s.updateZN v).peek a = s.peek a := rfl
@[simp] theorem peek_setReg (r : Reg) (v : Byte) (a : Addr) : (s.setReg r v).peek a = s.peek a := by
  cases r <;> rfl

end State

end Sys2Proof.Machine
end

