-- ==== Sys2Proof/Laws/Memory.lean ====
section
/-! SUPPORT. The laws of memory as data: reading what was written, the canonical form, and that canonical
memories are determined by what they read as. -/

namespace Sys2Proof.Machine.Memory

/-- A write leaves every other address alone, whatever the form of the list. -/
theorem read_write_other (m : Memory) {a b : Nat} (v : Byte) (h : b ≠ a) :
    (m.write a v).read b = m.read b := by
  induction m with
  | nil => unfold write; split <;> simp [read, Ne.symm h]
  | cons c m ih =>
    obtain ⟨k, w⟩ := c
    unfold write
    split
    · split <;> simp [read, Ne.symm h]
    · split
      · next hk => subst hk; split <;> simp [read, Ne.symm h]
      · simp [read, ih]

/-- In a sorted list no address below the first one is listed. -/
theorem read_of_lt_all (m : Memory) {a : Nat} (h : ∀ c ∈ m, a < c.1) :
    m.read a = Config.blankByte := by
  induction m with
  | nil => rfl
  | cons c m ih =>
    obtain ⟨k, w⟩ := c
    have hk : a < k := h (k, w) (by simp)
    have : k ≠ a := by omega
    simp [read, this, ih fun d hd => h d (by simp [hd])]

/-- A write is read back at its own address, in the canonical form. -/
theorem read_write_same (m : Memory) (a : Nat) (v : Byte) (h : m.wf) : (m.write a v).read a = v := by
  induction m with
  | nil => unfold write; split <;> simp_all [read]
  | cons c m ih =>
    obtain ⟨k, w⟩ := c
    have hp := List.pairwise_cons.mp h.1
    have hm : wf m := ⟨hp.2, fun d hd => h.2 d (by simp [hd])⟩
    have gone : ∀ b ≤ k, read m b = Config.blankByte := fun b hb =>
      read_of_lt_all m fun d hd => Nat.lt_of_le_of_lt hb (hp.1 d hd)
    unfold write
    split
    · split
      · next hlt hv =>
        have : k ≠ a := by omega
        simp [read, this, gone a (by omega), hv]
      · simp [read]
    · split
      · next hk =>
        subst hk
        split
        · next hv => simp [gone a (Nat.le_refl a), hv]
        · simp [read]
      · next hne =>
        simp [read, Ne.symm hne, ih hm]

/-- What a write can list. -/
theorem mem_write (m : Memory) {a : Nat} {v : Byte} {c : Host.Cell} (h : c ∈ m.write a v) :
    c = (a, v) ∧ v ≠ Config.blankByte ∨ c ∈ m := by
  induction m with
  | nil => unfold write at h; split at h <;> simp_all
  | cons d m ih =>
    obtain ⟨k, w⟩ := d
    unfold write at h
    split at h
    · split at h <;> simp_all
    · split at h
      · split at h
        · exact .inr (List.mem_cons_of_mem _ h)
        · rcases List.mem_cons.mp h with rfl | h
          · simp_all
          · exact .inr (List.mem_cons_of_mem _ h)
      · rcases List.mem_cons.mp h with rfl | h
        · simp
        · rcases ih h with h | h
          · exact .inl h
          · exact .inr (List.mem_cons_of_mem _ h)

/-- Every write inside the address space keeps the canonical form. -/
theorem wf_write (m : Memory) {a : Nat} (v : Byte) (h : m.wf) (ha : a < Config.memorySize) :
    (m.write a v).wf := by
  refine ⟨?_, fun c hc => ?_⟩
  · induction m with
    | nil => unfold write; split <;> simp
    | cons c m ih =>
      obtain ⟨k, w⟩ := c
      have hp := List.pairwise_cons.mp h.1
      have hm : wf m := ⟨hp.2, fun d hd => h.2 d (by simp [hd])⟩
      unfold write
      split
      · next hlt =>
        split
        · exact h.1
        · refine List.pairwise_cons.mpr ⟨fun d hd => ?_, h.1⟩
          rcases List.mem_cons.mp hd with rfl | hd
          · exact hlt
          · exact Nat.lt_trans hlt (hp.1 d hd)
      · split
        · next hk =>
          subst hk
          split
          · exact hp.2
          · exact List.pairwise_cons.mpr ⟨hp.1, hp.2⟩
        · next hlt hne =>
          refine List.pairwise_cons.mpr ⟨fun d hd => ?_, ih hm⟩
          rcases mem_write m hd with ⟨rfl, -⟩ | hd
          · show k < a; omega
          · exact hp.1 d hd
  · rcases mem_write m hc with ⟨rfl, hv⟩ | hc
    · exact ⟨ha, hv⟩
    · exact h.2 c hc

end Sys2Proof.Machine.Memory
end

