-- ==== Sys2Proof/Laws/Ops.lean ====
section
/-! SUPPORT. One equation per shared operation of Machine/Ops.lean that says once everything it does: a bus
read moves the keyboard cursor at most, a bus write touches memory and the events only, and the stack and
the interrupt sequence never meet the I/O registers. -/

namespace Sys2Proof.Machine

namespace State

variable (s : State)

/-! ### The bus -/

/-- Where the keyboard cursor is after a bus read (R57). -/
def curAfterRead (a : Addr) (s : State) : Nat :=
  if a = Config.ioKbd ∧ s.kbdCur < s.kbdBuf.length then s.kbdCur + 1 else s.kbdCur

@[simp] theorem setKbdCur_self : s.setKbdCur s.kbdCur = s := rfl

@[simp] theorem setPageCross_self : s.setPageCross s.pageCross = s := rfl

/-- A bus read moves the keyboard cursor and nothing else. -/
@[simp] theorem read8_snd (a : Addr) : (s.read8 a).2 = s.setKbdCur (s.curAfterRead a) := by
  unfold read8 curAfterRead kbdRead
  by_cases ha : a = Config.ioKbd <;> by_cases hc : s.kbdCur < s.kbdBuf.length <;> simp [ha, hc]

/-- Off IO_KBD a bus read is a plain read (R56). -/
theorem read8_of_ne {a : Addr} (h : a ≠ Config.ioKbd) : s.read8 a = (s.peek a, s) := by
  simp [read8, h]

/-- At IO_KBD a bus read is the next key, or 0 (R57). -/
theorem read8_kbd_fst : (s.read8 Config.ioKbd).1 = s.kbdBuf.getD s.kbdCur 0#8 := by
  unfold read8 kbdRead
  by_cases hc : s.kbdCur < s.kbdBuf.length <;> simp [hc]

theorem curAfterRead_of_ne {a : Addr} (h : a ≠ Config.ioKbd) : s.curAfterRead a = s.kbdCur := by
  simp [curAfterRead, h]

/-- Memory after a bus write (R58, R59). -/
def memAfterWrite (a : Addr) (v : Byte) (s : State) : Memory :=
  if a = Config.ioKbd ∧ Config.kbdWriteStores = false then s.mem else s.mem.write a.toNat v

/-- The events after a bus write (R60). -/
def eventsAfterWrite (a : Addr) (v : Byte) (s : State) : List Event :=
  if a = Config.ioTty then s.events ++ [.charOut v] else s.events

/-- A bus write touches memory and the events, and nothing else. -/
theorem write8_eq (a : Addr) (v : Byte) :
    s.write8 a v = (s.setMem (s.memAfterWrite a v)).setEvents (s.eventsAfterWrite a v) := by
  unfold write8 memAfterWrite eventsAfterWrite kbdWrite
  by_cases ha : a = Config.ioKbd
  · subst ha
    cases hk : Config.kbdWriteStores <;> simp <;> rfl
  · by_cases ht : a = Config.ioTty <;> simp [ha, ht] <;> rfl

/-- Off the I/O registers a bus write is a plain store. -/
theorem write8_of_ne {a : Addr} (v : Byte) (hk : a ≠ Config.ioKbd) (ht : a ≠ Config.ioTty) :
    s.write8 a v = s.poke a v := by
  simp [write8, hk, ht]

/-! ### Plain memory -/

theorem peek_poke_other {a b : Addr} (v : Byte) (h : b ≠ a) : (s.poke a v).peek b = s.peek b :=
  Memory.read_write_other s.mem v fun e => h (BitVec.eq_of_toNat_eq e)

theorem peek_poke_same (a : Addr) (v : Byte) (h : s.mem.wf) : (s.poke a v).peek a = v :=
  Memory.read_write_same s.mem a.toNat v h

theorem wf_poke (a : Addr) (v : Byte) (h : s.mem.wf) : (s.poke a v).mem.wf :=
  Memory.wf_write s.mem v h a.isLt

/-! ### The stack -/

end State

theorem stackAddr_toNat (sp : Byte) : (stackAddr sp).toNat = 0x100 + sp.toNat := by
  revert sp; decide

theorem stackAddr_ne_ioKbd (sp : Byte) : stackAddr sp ≠ Config.ioKbd := by
  revert sp; decide

theorem stackAddr_ne_ioTty (sp : Byte) : stackAddr sp ≠ Config.ioTty := by
  revert sp; decide

theorem stackAddr_inj {p q : Byte} : stackAddr p = stackAddr q ↔ p = q := by
  constructor
  · intro h
    have := congrArg BitVec.toNat h
    simp only [stackAddr_toNat] at this
    exact BitVec.eq_of_toNat_eq (by omega)
  · exact fun h => h ▸ rfl

namespace State

variable (s : State)

/-- A push is a plain store in the stack page, then SP - 1 (R71, R75). -/
theorem push8_eq (v : Byte) : s.push8 v = (s.poke (stackAddr s.sp) v).setSp (s.sp - 1#8) := by
  simp only [push8, write8_of_ne s v (stackAddr_ne_ioKbd s.sp) (stackAddr_ne_ioTty s.sp)]
  rfl

/-- A pop is SP + 1, then a plain read in the stack page (R72, R75). -/
theorem pop8_eq : s.pop8 = (s.peek (stackAddr (s.sp + 1#8)), s.setSp (s.sp + 1#8)) := by
  simp [pop8, read8_of_ne _ (stackAddr_ne_ioKbd _)]

/-- Two bytes pushed, high byte first (R73). -/
theorem push16_eq (w : Addr) :
    s.push16 w = ((s.poke (stackAddr s.sp) (hiByte w)).poke (stackAddr (s.sp - 1#8)) (loByte w)).setSp
      (s.sp - 1#8 - 1#8) := by
  simp only [push16, push8_eq]
  rfl

/-- Two bytes popped, low byte first (R74). -/
theorem pop16_eq :
    s.pop16 = (joinBytes (s.peek (stackAddr (s.sp + 1#8))) (s.peek (stackAddr (s.sp + 1#8 + 1#8))),
      s.setSp (s.sp + 1#8 + 1#8)) := by
  simp only [pop16, pop8_eq]
  rfl

/-! ### Interrupts -/

/-- Reading a word off IO_KBD changes nothing. -/
theorem read16_of_ne {a : Addr} (h : a ≠ Config.ioKbd) (h' : a + 1#16 ≠ Config.ioKbd) :
    s.read16 a = (joinBytes (s.peek a) (s.peek (a + 1#16)), s) := by
  simp only [read16, read8_of_ne _ h, read8_of_ne _ h']

/-- The memory a service leaves: three bytes in the stack page. -/
def memAfterService (brk : Bool) (s : State) : State :=
  ((s.poke (stackAddr s.sp) (hiByte s.pc)).poke (stackAddr (s.sp - 1#8)) (loByte s.pc)).poke
    (stackAddr (s.sp - 1#8 - 1#8)) (pushedStatus s.p brk)

/-- Everything the service sequence does (R183). -/
theorem serviceSequence_eq {vector : Addr} (brk : Bool) (h : vector ≠ Config.ioKbd)
    (h' : vector + 1#16 ≠ Config.ioKbd) :
    s.serviceSequence vector brk =
      (((s.memAfterService brk).setSp (s.sp - 1#8 - 1#8 - 1#8)).setFlag .i true).setPc
        (joinBytes ((s.memAfterService brk).peek vector) ((s.memAfterService brk).peek (vector + 1#16))) := by
  simp only [serviceSequence, push16_eq, push8_eq, read16_of_ne _ h h']
  rfl

/-- Everything a return from interrupt does (R178). -/
theorem returnFromInterrupt_eq :
    s.returnFromInterrupt =
      ((s.setP (pulledStatus (s.peek (stackAddr (s.sp + 1#8))))).setSp (s.sp + 1#8 + 1#8 + 1#8)).setPc
        (joinBytes (s.peek (stackAddr (s.sp + 1#8 + 1#8))) (s.peek (stackAddr (s.sp + 1#8 + 1#8 + 1#8)))) := by
  simp only [returnFromInterrupt, pop8_eq, pop16_eq]
  rfl

/-- The head of a step does one of three things (R182). -/
theorem serviceInterrupts_cases :
    (s.nmiPending = true ∧
      s.serviceInterrupts = (s.serviceSequence Config.nmiVector false).setNmiPending false) ∨
    (s.nmiPending = false ∧ s.irqPending = true ∧ s.flag .i = false ∧
      s.serviceInterrupts = (s.serviceSequence Config.irqVector false).setIrqPending false) ∨
    (s.interruptDue = false ∧ s.serviceInterrupts = s) := by
  unfold serviceInterrupts interruptDue
  cases s.nmiPending <;> cases s.irqPending <;> cases s.flag .i <;> simp

end State

end Sys2Proof.Machine
end

