-- ==== Sys2Proof/Laws/Operands.lean ====
section
/-! SUPPORT. One equation per shared operation of Machine/Operands.lean: what the addressing unit and each
operand class do to the state. -/

namespace Sys2Proof.Machine

theorem zext_toNat (v : Byte) : (zext v).toNat = v.toNat := by
  simp only [zext, BitVec.toNat_setWidth]
  have := v.isLt
  omega

theorem zext_ne_ioKbd (v : Byte) : zext v ≠ Config.ioKbd := by
  intro h
  have := congrArg BitVec.toNat h
  rw [zext_toNat] at this
  have hv := v.isLt
  rw [this] at hv
  exact absurd hv (by decide)

theorem joinBytes_toNat (lo hi : Byte) : (joinBytes lo hi).toNat = lo.toNat + 256 * hi.toNat := by
  have h := lo.isLt
  simp only [joinBytes, BitVec.toNat_append]
  rw [← Nat.shiftLeft_add_eq_or_of_lt h, Nat.shiftLeft_eq]
  omega

theorem loByte_toNat (w : Addr) : (loByte w).toNat = w.toNat % 256 := by
  simp [loByte]

theorem hiByte_toNat (w : Addr) : (hiByte w).toNat = w.toNat / 256 := by
  have := w.isLt
  simp only [hiByte, BitVec.extractLsb'_toNat, Nat.shiftRight_eq_div_pow]
  omega

theorem joinBytes_lo_hi (w : Addr) : joinBytes (loByte w) (hiByte w) = w := by
  apply BitVec.eq_of_toNat_eq
  rw [joinBytes_toNat, loByte_toNat, hiByte_toNat]
  omega

/-- A page is crossed when the high bytes differ (R11). -/
theorem crossesPage_eq (a b : Addr) : crossesPage a b = decide (a.toNat / 256 ≠ b.toNat / 256) := by
  unfold crossesPage
  rw [Bool.eq_iff_iff]
  simp only [bne_iff_ne, decide_eq_true_eq, ← hiByte_toNat]
  exact not_congr (BitVec.toNat_inj).symm

/-- Adding an index (R108). -/
theorem add_zext_toNat (a : Addr) (v : Byte) : (a + zext v).toNat = (a.toNat + v.toNat) % 65536 := by
  simp [zext_toNat]

/-- Adding a signed offset (R112). -/
theorem add_sext_toNat (a : Addr) (r : Byte) :
    ((a + sext r).toNat : Int) = ((a.toNat : Int) + r.toInt) % 65536 := by
  have h : (sext r).toInt = r.toInt := BitVec.toInt_signExtend_of_le (by decide)
  have h2 : ((sext r).toNat : Int) = (sext r).toInt % 65536 := by
    rw [BitVec.toInt_eq_toNat_cond]
    have := (sext r).isLt
    split <;> omega
  rw [BitVec.toNat_add, ← h]
  omega

/-- The page-wrap bug as bytes (R113): the pointer's page, the next low byte. -/
theorem pageWrapNext_eq (w : Addr) : pageWrapNext w = joinBytes (loByte (w + 1#16)) (hiByte w) := by
  unfold pageWrapNext joinBytes loByte hiByte
  refine BitVec.eq_of_getLsbD_eq fun i hi => ?_
  generalize w + 1#16 = u
  simp only [BitVec.getLsbD_or, BitVec.getLsbD_and, BitVec.getLsbD_append, BitVec.getLsbD_extractLsb']
  interval_cases i <;> simp

theorem pageWrapNext_toNat (w : Addr) :
    (pageWrapNext w).toNat = w.toNat / 256 * 256 + (w.toNat + 1) % 256 := by
  rw [pageWrapNext_eq, joinBytes_toNat, loByte_toNat, hiByte_toNat]
  simp
  omega

theorem pageWrapNext_ne (w : Addr) : pageWrapNext w ≠ w := by
  intro h
  have := congrArg BitVec.toNat h
  rw [pageWrapNext_toNat] at this
  omega

namespace State

variable (s : State)

/-- A zero-page pointer is read from memory and reading it changes nothing (R110, R111). -/
theorem readPointer_eq (z : Byte) :
    s.readPointer z = (joinBytes (s.peek (zext z)) (s.peek (zext (z + 1#8))), s) := by
  simp only [readPointer, read8_of_ne _ (zext_ne_ioKbd _)]

/-- The addressing unit changes no state: its pointer reads lie in the zero page. -/
@[simp] theorem effAddr_snd (m : MemMode) : (s.effAddr m).2 = s := by
  cases m <;> simp [effAddr, readPointer_eq]

/-- It depends on memory, X and Y only. -/
theorem effAddr_congr {s t : State} (m : MemMode) (hm : t.mem = s.mem) (hx : t.x = s.x)
    (hy : t.y = s.y) : (t.effAddr m).1 = (s.effAddr m).1 := by
  cases m <;> simp [effAddr, readPointer_eq, peek, hm, hx, hy]

/-- Running the addressing unit records the indicator and nothing else. -/
theorem address_eq (m : MemMode) :
    s.address m = ((s.effAddr m).1.addr, s.setPageCross (s.effAddr m).1.cross) := by
  simp [address]

/-- The page-cross indicator after an operand read. -/
def crossAfterSource (src : Source) (s : State) : Bool :=
  match src with
  | .imm _ => s.pageCross
  | .mem m => (s.effAddr m).1.cross

/-- The keyboard cursor after an operand read. -/
def curAfterSource (src : Source) (s : State) : Nat :=
  match src with
  | .imm _ => s.kbdCur
  | .mem m => s.curAfterRead (s.effAddr m).1.addr

/-- The operand M (R115). -/
def sourceValue (src : Source) (s : State) : Byte :=
  match src with
  | .imm i => i
  | .mem m => (s.read8 (s.effAddr m).1.addr).1

theorem read8_fst_setPageCross (b : Bool) (a : Addr) :
    ((s.setPageCross b).read8 a).1 = (s.read8 a).1 := by
  unfold read8 kbdRead
  split
  · simp only [setPageCross_kbdBuf, setPageCross_kbdCur]
    split <;> rfl
  · rfl

theorem curAfterRead_setPageCross (b : Bool) (a : Addr) :
    (s.setPageCross b).curAfterRead a = s.curAfterRead a := rfl

/-- An operand read gives M, and moves the indicator and the keyboard cursor only. -/
theorem readSource_eq (src : Source) :
    s.readSource src =
      (s.sourceValue src, (s.setPageCross (s.crossAfterSource src)).setKbdCur (s.curAfterSource src)) := by
  cases src with
  | imm i => rfl
  | mem m =>
    refine Prod.ext ?_ ?_
    · simp only [readSource, address_eq, read8_fst_setPageCross, sourceValue]
    · simp only [readSource, address_eq, read8_snd, curAfterRead_setPageCross, crossAfterSource,
        curAfterSource]

/-- What JMP indirect reads (R113): the two pointer bytes, each at most moving the keyboard cursor. -/
theorem indirectTarget_eq (ptr : Addr) :
    s.indirectTarget ptr =
      (joinBytes (s.read8 ptr).1 ((s.setKbdCur (s.curAfterRead ptr)).read8 (pageWrapNext ptr)).1,
        s.setKbdCur ((s.setKbdCur (s.curAfterRead ptr)).curAfterRead (pageWrapNext ptr))) := by
  simp only [indirectTarget, read8_snd]
  rfl

end State

end Sys2Proof.Machine
end

