-- ==== Sys2Proof/Laws/Decode.lean ====
section
/-! SUPPORT. The decoder's table held against R89's list and R86's columns (WellFormed.lean), and the lemmas
that turn a decoded opcode into its row. -/

namespace Sys2Proof

/-! ### The table -/

/-- The opcodes of the map do not depend on the operand bytes. -/
theorem opcodeMap_opcodes (b : Byte) (w : Addr) :
    (opcodeMap b w).map Prod.fst = (opcodeMap 0#8 0#16).map Prod.fst := by
  simp only [opcodeMap, List.map_append]
  rfl

/-- There are 151 implemented opcodes (R85). -/
theorem opcodeMap_length (b : Byte) (w : Addr) : (opcodeMap b w).length = 151 := by
  simp only [opcodeMap, List.length_append]
  rfl

/-- No opcode stands in two rows. -/
theorem opcodeMap_nodup (b : Byte) (w : Addr) : ((opcodeMap b w).map Prod.fst).Nodup := by
  rw [opcodeMap_opcodes]
  decide +kernel

/-- The map's opcodes are those that R89 does not list. -/
theorem mem_opcodes_iff (op : Byte) :
    op ∈ (opcodeMap 0#8 0#16).map Prod.fst ↔ op ∉ notImplementedOpcodes := by
  revert op
  decide +kernel

/-- In a table without repeated keys a lookup finds exactly the rows. -/
theorem lookup_eq_some_iff_mem {α : Type} (l : List (Byte × α)) (h : (l.map Prod.fst).Nodup)
    (k : Byte) (v : α) : l.lookup k = some v ↔ (k, v) ∈ l := by
  induction l with
  | nil => simp
  | cons r l ih =>
    obtain ⟨j, u⟩ := r
    rw [List.map_cons, List.nodup_cons] at h
    by_cases hk : k = j
    · subst hk
      have : (k, v) ∉ l := fun hm => h.1 (List.mem_map.mpr ⟨(k, v), hm, rfl⟩)
      simp [List.lookup, this, eq_comm]
    · simp [List.lookup, beq_false_of_ne hk, ih h.2, hk]

/-- A decoded opcode is a row of the map, and the other way round. -/
theorem decodeOp_eq_some_iff (op b1 b2 : Byte) (i : Instr) :
    decodeOp op b1 b2 = some i ↔ (op, i) ∈ opcodeMap b1 (joinBytes b1 b2) :=
  lookup_eq_some_iff_mem _ (opcodeMap_nodup _ _) op i

/-- An opcode decodes to nothing exactly when R89 lists it. -/
theorem decodeOp_eq_none_iff (op b1 b2 : Byte) :
    decodeOp op b1 b2 = none ↔ op ∈ notImplementedOpcodes := by
  rw [← not_iff_not, ← mem_opcodes_iff, ← opcodeMap_opcodes b1 (joinBytes b1 b2), List.mem_map]
  constructor
  · intro h
    obtain ⟨i, hi⟩ := Option.ne_none_iff_exists'.mp h
    exact ⟨(op, i), (decodeOp_eq_some_iff op b1 b2 i).mp hi, rfl⟩
  · rintro ⟨⟨k, i⟩, hr, rfl⟩ h
    rw [(decodeOp_eq_some_iff k b1 b2 i).mpr hr] at h
    cases h

/-- The rows' operand byte counts do not depend on the operand bytes (R83). -/
theorem opcodeMap_operandBytes (b : Byte) (w : Addr) :
    (opcodeMap b w).map (fun r => (r.1, operandBytes r.2)) =
      (opcodeMap 0#8 0#16).map (fun r => (r.1, operandBytes r.2)) := by
  simp only [opcodeMap, List.map_append]
  rfl

/-- The opcode alone fixes the count of operand bytes (R83). -/
theorem opcodeOperandBytes_of_decodeOp {op b1 b2 : Byte} {i : Instr} (h : decodeOp op b1 b2 = some i) :
    opcodeOperandBytes op = some (operandBytes i) := by
  have hm := (decodeOp_eq_some_iff op b1 b2 i).mp h
  have hr : (op, operandBytes i) ∈
      (opcodeMap 0#8 (joinBytes 0#8 0#8)).map (fun r => (r.1, operandBytes r.2)) := by
    rw [opcodeMap_operandBytes 0#8, ← opcodeMap_operandBytes b1 (joinBytes b1 b2)]
    exact List.mem_map.mpr ⟨(op, i), hm, rfl⟩
  obtain ⟨⟨k, j⟩, hj, hjk⟩ := List.mem_map.mp hr
  obtain ⟨rfl, hn⟩ := Prod.mk.inj hjk
  have hd : decodeOp k 0#8 0#8 = some j := (decodeOp_eq_some_iff k 0#8 0#8 j).mpr hj
  exact (congrArg (Option.map operandBytes) hd).trans (congrArg some hn)

theorem opcodeOperandBytes_eq_none_iff (op : Byte) :
    opcodeOperandBytes op = none ↔ op ∈ notImplementedOpcodes := by
  rw [opcodeOperandBytes, Option.map_eq_none_iff, decodeOp_eq_none_iff]

/-- An implemented opcode decodes whatever its operand bytes are, to an instruction with its count. -/
theorem decodeOp_of_operandBytes {op : Byte} {n : Nat} (h : opcodeOperandBytes op = some n)
    (b1 b2 : Byte) : ∃ i, decodeOp op b1 b2 = some i ∧ operandBytes i = n := by
  cases hd : decodeOp op b1 b2 with
  | none =>
    rw [decodeOp_eq_none_iff, ← opcodeOperandBytes_eq_none_iff, h] at hd
    simp at hd
  | some i =>
    refine ⟨i, rfl, ?_⟩
    rw [opcodeOperandBytes_of_decodeOp hd] at h
    exact Option.some.inj h

/-- An instruction takes at most two operand bytes (R83). -/
theorem operandBytes_le (i : Instr) : operandBytes i ≤ 2 := by
  unfold operandBytes
  split
  · decide
  · cases Instr.mode _ <;> decide

/-- Rows without operand bytes do not depend on them. -/
theorem opcodeMap_noOperand (b b' : Byte) (w w' : Addr) :
    (opcodeMap b w).map (fun r => if operandBytes r.2 = 0 then some r else none) =
      (opcodeMap b' w').map (fun r => if operandBytes r.2 = 0 then some r else none) := by
  simp only [opcodeMap, List.map_append]
  rfl

/-- Rows with one operand byte do not depend on the second. -/
theorem opcodeMap_oneOperand (b : Byte) (w w' : Addr) :
    (opcodeMap b w).map (fun r => if operandBytes r.2 = 1 then some r else none) =
      (opcodeMap b w').map (fun r => if operandBytes r.2 = 1 then some r else none) := by
  simp only [opcodeMap, List.map_append]
  rfl

theorem mem_of_map_guard {l l' : List (Byte × Instr)} {n : Nat} {r : Byte × Instr}
    (h : l.map (fun r => if operandBytes r.2 = n then some r else none) =
      l'.map (fun r => if operandBytes r.2 = n then some r else none))
    (hr : r ∈ l) (hn : operandBytes r.2 = n) : r ∈ l' := by
  have : some r ∈ l.map (fun r => if operandBytes r.2 = n then some r else none) :=
    List.mem_map.mpr ⟨r, hr, by simp [hn]⟩
  rw [h] at this
  obtain ⟨q, hq, hqr⟩ := List.mem_map.mp this
  split at hqr
  · exact Option.some.inj hqr ▸ hq
  · cases hqr

/-- Decoding does not depend on bytes that the instruction does not take (R83). -/
theorem decodeOp_of_used {op b1 b2 : Byte} {i : Instr} (h : decodeOp op b1 b2 = some i) (c1 c2 : Byte)
    (h1 : 1 ≤ operandBytes i → c1 = b1) (h2 : operandBytes i = 2 → c2 = b2) :
    decodeOp op c1 c2 = some i := by
  have hm := (decodeOp_eq_some_iff _ _ _ _).mp h
  have hle := operandBytes_le i
  rw [decodeOp_eq_some_iff]
  by_cases k0 : operandBytes i = 0
  · exact mem_of_map_guard (opcodeMap_noOperand _ _ _ _) hm k0
  · rw [h1 (by omega)]
    by_cases k1 : operandBytes i = 1
    · exact mem_of_map_guard (opcodeMap_oneOperand _ _ _) hm k1
    · rw [h2 (by omega)]
      exact hm

/-- The operand bytes of a row: none, the byte, or the word low byte first (R83, R84). -/
def rowOperands (n : Nat) (b : Byte) (w : Addr) : List Byte :=
  match n with
  | 0 => []
  | 1 => [b]
  | _ => [loByte w, hiByte w]

theorem opcodeMap_encode (b : Byte) (w : Addr) :
    (opcodeMap b w).map (fun r => encode r.2) =
      (opcodeMap b w).map (fun r => r.1 :: rowOperands (operandBytes r.2) b w) := by
  simp only [opcodeMap, List.map_append]
  rfl

/-- The encoding of a row's instruction is its opcode and its operand bytes. -/
theorem encode_of_row {b : Byte} {w : Addr} {r : Byte × Instr} (h : r ∈ opcodeMap b w) :
    encode r.2 = r.1 :: rowOperands (operandBytes r.2) b w :=
  List.map_inj_left.mp (opcodeMap_encode b w) r h

/-! ### Decoding bytes -/

/-- What decoding a byte string with an opcode answers. -/
theorem decode_cons (op : Byte) (rest : List Byte) :
    (op ∈ notImplementedOpcodes ∧ decode (op :: rest) = .error (.opcodeNotImplemented op)) ∨
    ∃ i, decodeOp op (rest.getD 0 0#8) (rest.getD 1 0#8) = some i ∧
      decode (op :: rest) =
        if rest.length < operandBytes i then .error (.operandMissing op)
        else .ok (i, rest.drop (operandBytes i)) := by
  cases hn : opcodeOperandBytes op with
  | none => exact .inl ⟨(opcodeOperandBytes_eq_none_iff op).mp hn, by simp [decode, hn]⟩
  | some n =>
    obtain ⟨i, hi, rfl⟩ := decodeOp_of_operandBytes hn (rest.getD 0 0#8) (rest.getD 1 0#8)
    exact .inr ⟨i, hi, by simp only [decode, hn, hi]⟩

end Sys2Proof
end

