-- ==== Sys2Proof/Laws/Keeps.lean ====
section
/-! SUPPORT. What every shared operation of an instruction keeps of the state outside its registers, said
once (`Keeps`), and that the operations commute with a change of a status bit they neither read nor
write. -/

namespace Sys2Proof.Machine

/-- From `s` to `t` the host's state is kept (R43 to R46), the keyboard cursor only advances inside the
buffer (R47), events are only appended (R48), memory keeps its form (R51), and bits 4 and 5 of P are not
moved away from their values of R33 and R34. -/
structure Keeps (s t : State) : Prop where
  irqPending : t.irqPending = s.irqPending
  nmiPending : t.nmiPending = s.nmiPending
  halted : t.halted = s.halted
  romLoaded : t.romLoaded = s.romLoaded
  kbdBuf : t.kbdBuf = s.kbdBuf
  cycles : t.cycles = s.cycles
  draws : t.draws = s.draws
  kbdCur_le : s.kbdCur ≤ t.kbdCur
  kbdCur_in : s.kbdCur ≤ s.kbdBuf.length → t.kbdCur ≤ s.kbdBuf.length
  events : ∃ es, t.events = s.events ++ es ∧ ∀ e ∈ es, ∃ v, e = .charOut v
  mem_wf : s.mem.wf → t.mem.wf
  b_clear : s.flag .b = false → t.flag .b = false
  u_set : s.flag .u = true → t.flag .u = true

namespace Keeps

theorem refl (s : State) : Keeps s s :=
  ⟨rfl, rfl, rfl, rfl, rfl, rfl, rfl, Nat.le_refl _, id, ⟨[], by simp, by simp⟩, id, id, id⟩

theorem trans {s t u : State} (h : Keeps s t) (k : Keeps t u) : Keeps s u where
  irqPending := k.irqPending.trans h.irqPending
  nmiPending := k.nmiPending.trans h.nmiPending
  halted := k.halted.trans h.halted
  romLoaded := k.romLoaded.trans h.romLoaded
  kbdBuf := k.kbdBuf.trans h.kbdBuf
  cycles := k.cycles.trans h.cycles
  draws := k.draws.trans h.draws
  kbdCur_le := Nat.le_trans h.kbdCur_le k.kbdCur_le
  kbdCur_in hs := by
    have := k.kbdCur_in (h.kbdBuf ▸ h.kbdCur_in hs)
    rwa [h.kbdBuf] at this
  events := by
    obtain ⟨es, he, hc⟩ := h.events
    obtain ⟨fs, hf, hd⟩ := k.events
    refine ⟨es ++ fs, by rw [hf, he, List.append_assoc], fun e hm => ?_⟩
    rcases List.mem_append.mp hm with hm | hm
    · exact hc e hm
    · exact hd e hm
  mem_wf := k.mem_wf ∘ h.mem_wf
  b_clear := k.b_clear ∘ h.b_clear
  u_set := k.u_set ∘ h.u_set

/-- Enough for an operation that leaves the bus alone. -/
theorem of_eq {s t : State} (h1 : t.irqPending = s.irqPending) (h2 : t.nmiPending = s.nmiPending)
    (h3 : t.halted = s.halted) (h4 : t.romLoaded = s.romLoaded) (h5 : t.kbdBuf = s.kbdBuf)
    (h6 : t.cycles = s.cycles) (h7 : t.draws = s.draws) (h8 : t.kbdCur = s.kbdCur)
    (h9 : t.events = s.events) (h10 : t.mem = s.mem) (hb : s.flag .b = false → t.flag .b = false)
    (hu : s.flag .u = true → t.flag .u = true) : Keeps s t :=
  ⟨h1, h2, h3, h4, h5, h6, h7, Nat.le_of_eq h8.symm, fun h => h8 ▸ h, ⟨[], by simp [h9], by simp⟩,
    fun h => h10 ▸ h, hb, hu⟩

end Keeps

namespace State

variable (s : State)

/-! ### The primitives -/

theorem curAfterRead_le (a : Addr) : s.kbdCur ≤ s.curAfterRead a := by
  unfold curAfterRead
  split <;> omega

theorem curAfterRead_in (a : Addr) (h : s.kbdCur ≤ s.kbdBuf.length) :
    s.curAfterRead a ≤ s.kbdBuf.length := by
  unfold curAfterRead
  split
  · omega
  · exact h

theorem keeps_read8 (a : Addr) : Keeps s (s.read8 a).2 := by
  rw [read8_snd]
  exact ⟨rfl, rfl, rfl, rfl, rfl, rfl, rfl, s.curAfterRead_le a, s.curAfterRead_in a,
    ⟨[], by simp, by simp⟩, id, id, id⟩

theorem wf_memAfterWrite (a : Addr) (v : Byte) (h : s.mem.wf) : (s.memAfterWrite a v).wf := by
  unfold memAfterWrite
  split
  · exact h
  · exact Memory.wf_write _ _ h a.isLt

theorem keeps_write8 (a : Addr) (v : Byte) : Keeps s (s.write8 a v) := by
  rw [write8_eq]
  refine ⟨rfl, rfl, rfl, rfl, rfl, rfl, rfl, Nat.le_refl _, id, ?_, s.wf_memAfterWrite a v, id, id⟩
  simp only [setEvents_events, eventsAfterWrite]
  split
  · exact ⟨[.charOut v], rfl, fun e h => ⟨v, by simpa using h⟩⟩
  · exact ⟨[], by simp, by simp⟩

theorem keeps_setPc (v : Addr) : Keeps s (s.setPc v) :=
  .of_eq rfl rfl rfl rfl rfl rfl rfl rfl rfl rfl id id

theorem keeps_setSp (v : Byte) : Keeps s (s.setSp v) :=
  .of_eq rfl rfl rfl rfl rfl rfl rfl rfl rfl rfl id id

theorem keeps_setPageCross (b : Bool) : Keeps s (s.setPageCross b) :=
  .of_eq rfl rfl rfl rfl rfl rfl rfl rfl rfl rfl id id

theorem keeps_setTaken (b : Bool) : Keeps s (s.setTaken b) :=
  .of_eq rfl rfl rfl rfl rfl rfl rfl rfl rfl rfl id id

theorem keeps_setReg (r : Reg) (v : Byte) : Keeps s (s.setReg r v) := by
  apply Keeps.of_eq <;> simp

/-- Writing a status bit other than bits 4 and 5. -/
theorem keeps_setFlag (f : Flag) (b : Bool) (hb : f ≠ .b) (hu : f ≠ .u) : Keeps s (s.setFlag f b) := by
  apply Keeps.of_eq <;> simp [hb.symm, hu.symm]

/-- A pulled status has bit 4 cleared and bit 5 set (R40). -/
theorem keeps_setP_pulled (v : Byte) : Keeps s (s.setP (pulledStatus v)) := by
  apply Keeps.of_eq <;> simp [getLsbD_pulledStatus]

theorem keeps_updateZN (v : Byte) : Keeps s (s.updateZN v) :=
  (s.keeps_setFlag .z _ (by decide) (by decide)).trans (keeps_setFlag _ .n _ (by decide) (by decide))

theorem keeps_readSource (src : Source) : Keeps s (s.readSource src).2 := by
  cases src with
  | imm i => exact .refl s
  | mem m =>
    rw [readSource, address_eq]
    exact (s.keeps_setPageCross _).trans (keeps_read8 _ _)

theorem keeps_push8 (v : Byte) : Keeps s (s.push8 v) :=
  (s.keeps_write8 _ v).trans (keeps_setSp _ _)

theorem keeps_pop8 : Keeps s s.pop8.2 :=
  (s.keeps_setSp _).trans (keeps_read8 _ _)

theorem keeps_push16 (w : Addr) : Keeps s (s.push16 w) :=
  (s.keeps_push8 _).trans (keeps_push8 _ _)

theorem keeps_pop16 : Keeps s s.pop16.2 :=
  s.keeps_pop8.trans (keeps_pop8 _)

theorem keeps_read16 (a : Addr) : Keeps s (s.read16 a).2 :=
  (s.keeps_read8 a).trans (keeps_read8 _ _)

theorem keeps_fetch8 : Keeps s s.fetch8.2 :=
  (s.keeps_read8 _).trans (keeps_setPc _ _)

/-! ### The operand classes -/

theorem keeps_load (r : Reg) (src : Source) : Keeps s (s.load r src) :=
  ((s.keeps_readSource src).trans (keeps_setReg _ _ _)).trans (keeps_updateZN _ _)

theorem keeps_addToA (m : Byte) : Keeps s (s.addToA m) :=
  (((s.keeps_setReg .a _).trans (keeps_setFlag _ .c _ (by decide) (by decide))).trans
    (keeps_setFlag _ .v _ (by decide) (by decide))).trans (keeps_updateZN _ _)

theorem keeps_adc (src : Source) : Keeps s (s.adc src) :=
  (s.keeps_readSource src).trans (keeps_addToA _ _)

theorem keeps_sbc (src : Source) : Keeps s (s.sbc src) :=
  (s.keeps_readSource src).trans (keeps_addToA _ _)

theorem keeps_compare (r : Reg) (src : Source) : Keeps s (s.compare r src) :=
  ((s.keeps_readSource src).trans (keeps_setFlag _ .c _ (by decide) (by decide))).trans
    (keeps_updateZN _ _)

theorem keeps_logic (op : Byte → Byte → Byte) (src : Source) : Keeps s (s.logic op src) :=
  ((s.keeps_readSource src).trans (keeps_setReg _ .a _)).trans (keeps_updateZN _ _)

theorem keeps_bitTest (m : MemMode) : Keeps s (s.bitTest m) :=
  (((s.keeps_readSource (.mem m)).trans (keeps_setFlag _ .z _ (by decide) (by decide))).trans
    (keeps_setFlag _ .n _ (by decide) (by decide))).trans (keeps_setFlag _ .v _ (by decide) (by decide))

theorem keeps_store (r : Reg) (m : MemMode) : Keeps s (s.store r m) := by
  rw [store, address_eq]
  exact (s.keeps_setPageCross _).trans (keeps_write8 _ _ _)

theorem keeps_shiftFlags (r : Shifted) : Keeps s (s.shiftFlags r) :=
  (s.keeps_setFlag .c _ (by decide) (by decide)).trans (keeps_updateZN _ _)

theorem keeps_shift (f : Bool → Byte → Shifted) (place : Place) : Keeps s (s.shift f place) := by
  cases place with
  | acc => exact (s.keeps_setReg .a _).trans (keeps_shiftFlags _ _)
  | mem m =>
    simp only [shift, address_eq]
    exact (((s.keeps_setPageCross _).trans (keeps_read8 _ _)).trans (keeps_write8 _ _ _)).trans
      (keeps_shiftFlags _ _)

theorem keeps_addToMemory (d : Byte) (m : MemMode) : Keeps s (s.addToMemory d m) := by
  simp only [addToMemory, address_eq]
  exact (((s.keeps_setPageCross _).trans (keeps_read8 _ _)).trans (keeps_write8 _ _ _)).trans
    (keeps_updateZN _ _)

theorem keeps_addToReg (r : Reg) (d : Byte) : Keeps s (s.addToReg r d) :=
  (s.keeps_setReg r _).trans (keeps_updateZN _ _)

theorem keeps_transfer (v : Byte) (r : Reg) : Keeps s (s.transfer v r) :=
  (s.keeps_setReg r v).trans (keeps_updateZN _ _)

theorem keeps_branch (c : Bool) (r : Byte) : Keeps s (s.branch c r) := by
  cases c
  · exact (s.keeps_setPageCross _).trans (keeps_setTaken _ _)
  · exact ((s.keeps_setPageCross _).trans (keeps_setTaken _ _)).trans (keeps_setPc _ _)

theorem keeps_indirectTarget (ptr : Addr) : Keeps s (s.indirectTarget ptr).2 :=
  (s.keeps_read8 ptr).trans (keeps_read8 _ _)

theorem keeps_callSubroutine (w : Addr) : Keeps s (s.callSubroutine w) :=
  (s.keeps_push16 _).trans (keeps_setPc _ _)

theorem keeps_returnFromSubroutine : Keeps s s.returnFromSubroutine :=
  s.keeps_pop16.trans (keeps_setPc _ _)

theorem keeps_serviceSequence (vector : Addr) (brk : Bool) : Keeps s (s.serviceSequence vector brk) :=
  ((((s.keeps_push16 s.pc).trans (keeps_push8 _ _)).trans
    (keeps_setFlag _ .i _ (by decide) (by decide))).trans (keeps_read16 _ _)).trans (keeps_setPc _ _)

theorem keeps_returnFromInterrupt : Keeps s s.returnFromInterrupt :=
  ((s.keeps_pop8.trans (keeps_setP_pulled _ _)).trans (keeps_pop16 _)).trans (keeps_setPc _ _)

theorem keeps_fetchOperands (n : Nat) : Keeps s (s.fetchOperands n).2 :=
  match n with
  | 0 => .refl s
  | 1 => s.keeps_fetch8
  | _ + 2 => s.keeps_fetch8.trans (keeps_fetch8 _)

end State

end Sys2Proof.Machine
end

