-- ==== Sys2Proof/Laws/PerInstr.lean ====
section
/-! SUPPORT. The family `EncodingForm` of LAWS.json: one lemma per constructor of `Instr`. -/

namespace Sys2Proof.Laws.EncodingForm

/-- R81 to R83, R85: the encoding of an instruction is one well-formed piece of code, of its opcode and the
operand bytes its mode takes; and its opcode's row of the map at those operand bytes is the instruction,
whatever bytes follow. -/
def Statement (i : Instr) : Prop :=
  wellFormedCode (encode i) = true ∧ encode i = opcodeOf i :: (encode i).tail ∧
  (encode i).tail.length = operandBytes i ∧
  ∀ rest : List Byte, (opcodeOf i, i) ∈
    opcodeMap (((encode i).tail ++ rest).getD 0 0#8)
      (joinBytes (((encode i).tail ++ rest).getD 0 0#8) (((encode i).tail ++ rest).getD 1 0#8))

/-- The row of an instruction with a word operand. -/
theorem word_row {f : Addr → Instr} {op : Byte} (w : Addr) (b : Byte)
    (h : ∀ u, (op, f u) ∈ opcodeMap b u) :
    (op, f w) ∈ opcodeMap b (joinBytes (loByte w) (hiByte w)) := by
  rw [Machine.joinBytes_lo_hi]
  exact h w

/-! Every row of the map's sixteen parts is a row of the map. -/

theorem of_row0 {b : Byte} {w : Addr} {r : Byte × Instr} (k : Nat)
    (h : (opcodeRow0 b w)[k]? = some r) : r ∈ opcodeMap b w := by
  simp [opcodeMap, List.mem_of_getElem? h]

theorem of_row1 {b : Byte} {w : Addr} {r : Byte × Instr} (k : Nat)
    (h : (opcodeRow1 b w)[k]? = some r) : r ∈ opcodeMap b w := by
  simp [opcodeMap, List.mem_of_getElem? h]

theorem of_row2 {b : Byte} {w : Addr} {r : Byte × Instr} (k : Nat)
    (h : (opcodeRow2 b w)[k]? = some r) : r ∈ opcodeMap b w := by
  simp [opcodeMap, List.mem_of_getElem? h]

theorem of_row3 {b : Byte} {w : Addr} {r : Byte × Instr} (k : Nat)
    (h : (opcodeRow3 b w)[k]? = some r) : r ∈ opcodeMap b w := by
  simp [opcodeMap, List.mem_of_getElem? h]

theorem of_row4 {b : Byte} {w : Addr} {r : Byte × Instr} (k : Nat)
    (h : (opcodeRow4 b w)[k]? = some r) : r ∈ opcodeMap b w := by
  simp [opcodeMap, List.mem_of_getElem? h]

theorem of_row5 {b : Byte} {w : Addr} {r : Byte × Instr} (k : Nat)
    (h : (opcodeRow5 b w)[k]? = some r) : r ∈ opcodeMap b w := by
  simp [opcodeMap, List.mem_of_getElem? h]

theorem of_row6 {b : Byte} {w : Addr} {r : Byte × Instr} (k : Nat)
    (h : (opcodeRow6 b w)[k]? = some r) : r ∈ opcodeMap b w := by
  simp [opcodeMap, List.mem_of_getElem? h]

theorem of_row7 {b : Byte} {w : Addr} {r : Byte × Instr} (k : Nat)
    (h : (opcodeRow7 b w)[k]? = some r) : r ∈ opcodeMap b w := by
  simp [opcodeMap, List.mem_of_getElem? h]

theorem of_row8 {b : Byte} {w : Addr} {r : Byte × Instr} (k : Nat)
    (h : (opcodeRow8 b w)[k]? = some r) : r ∈ opcodeMap b w := by
  simp [opcodeMap, List.mem_of_getElem? h]

theorem of_row9 {b : Byte} {w : Addr} {r : Byte × Instr} (k : Nat)
    (h : (opcodeRow9 b w)[k]? = some r) : r ∈ opcodeMap b w := by
  simp [opcodeMap, List.mem_of_getElem? h]

theorem of_rowA {b : Byte} {w : Addr} {r : Byte × Instr} (k : Nat)
    (h : (opcodeRowA b w)[k]? = some r) : r ∈ opcodeMap b w := by
  simp [opcodeMap, List.mem_of_getElem? h]

theorem of_rowB {b : Byte} {w : Addr} {r : Byte × Instr} (k : Nat)
    (h : (opcodeRowB b w)[k]? = some r) : r ∈ opcodeMap b w := by
  simp [opcodeMap, List.mem_of_getElem? h]

theorem of_rowC {b : Byte} {w : Addr} {r : Byte × Instr} (k : Nat)
    (h : (opcodeRowC b w)[k]? = some r) : r ∈ opcodeMap b w := by
  simp [opcodeMap, List.mem_of_getElem? h]

theorem of_rowD {b : Byte} {w : Addr} {r : Byte × Instr} (k : Nat)
    (h : (opcodeRowD b w)[k]? = some r) : r ∈ opcodeMap b w := by
  simp [opcodeMap, List.mem_of_getElem? h]

theorem of_rowE {b : Byte} {w : Addr} {r : Byte × Instr} (k : Nat)
    (h : (opcodeRowE b w)[k]? = some r) : r ∈ opcodeMap b w := by
  simp [opcodeMap, List.mem_of_getElem? h]

theorem of_rowF {b : Byte} {w : Addr} {r : Byte × Instr} (k : Nat)
    (h : (opcodeRowF b w)[k]? = some r) : r ∈ opcodeMap b w := by
  simp [opcodeMap, List.mem_of_getElem? h]

theorem ldaIndx (z : Byte) : Statement (.ldaIndx z) :=
  ⟨rfl, rfl, rfl, fun _ => of_rowA 1 rfl⟩
theorem ldaZp (z : Byte) : Statement (.ldaZp z) :=
  ⟨rfl, rfl, rfl, fun _ => of_rowA 4 rfl⟩
theorem ldaImm (i : Byte) : Statement (.ldaImm i) :=
  ⟨rfl, rfl, rfl, fun _ => of_rowA 7 rfl⟩
theorem ldaAbs (w : Addr) : Statement (.ldaAbs w) :=
  ⟨rfl, rfl, rfl, fun _ => word_row (f := .ldaAbs) w (loByte w) fun _ => of_rowA 10 rfl⟩
theorem ldaIndy (z : Byte) : Statement (.ldaIndy z) :=
  ⟨rfl, rfl, rfl, fun _ => of_rowB 1 rfl⟩
theorem ldaZpx (z : Byte) : Statement (.ldaZpx z) :=
  ⟨rfl, rfl, rfl, fun _ => of_rowB 3 rfl⟩
theorem ldaAbsy (w : Addr) : Statement (.ldaAbsy w) :=
  ⟨rfl, rfl, rfl, fun _ => word_row (f := .ldaAbsy) w (loByte w) fun _ => of_rowB 6 rfl⟩
theorem ldaAbsx (w : Addr) : Statement (.ldaAbsx w) :=
  ⟨rfl, rfl, rfl, fun _ => word_row (f := .ldaAbsx) w (loByte w) fun _ => of_rowB 9 rfl⟩
theorem ldxImm (i : Byte) : Statement (.ldxImm i) :=
  ⟨rfl, rfl, rfl, fun _ => of_rowA 2 rfl⟩
theorem ldxZp (z : Byte) : Statement (.ldxZp z) :=
  ⟨rfl, rfl, rfl, fun _ => of_rowA 5 rfl⟩
theorem ldxAbs (w : Addr) : Statement (.ldxAbs w) :=
  ⟨rfl, rfl, rfl, fun _ => word_row (f := .ldxAbs) w (loByte w) fun _ => of_rowA 11 rfl⟩
theorem ldxZpy (z : Byte) : Statement (.ldxZpy z) :=
  ⟨rfl, rfl, rfl, fun _ => of_rowB 4 rfl⟩
theorem ldxAbsy (w : Addr) : Statement (.ldxAbsy w) :=
  ⟨rfl, rfl, rfl, fun _ => word_row (f := .ldxAbsy) w (loByte w) fun _ => of_rowB 10 rfl⟩
theorem ldyImm (i : Byte) : Statement (.ldyImm i) :=
  ⟨rfl, rfl, rfl, fun _ => of_rowA 0 rfl⟩
theorem ldyZp (z : Byte) : Statement (.ldyZp z) :=
  ⟨rfl, rfl, rfl, fun _ => of_rowA 3 rfl⟩
theorem ldyAbs (w : Addr) : Statement (.ldyAbs w) :=
  ⟨rfl, rfl, rfl, fun _ => word_row (f := .ldyAbs) w (loByte w) fun _ => of_rowA 9 rfl⟩
theorem ldyZpx (z : Byte) : Statement (.ldyZpx z) :=
  ⟨rfl, rfl, rfl, fun _ => of_rowB 2 rfl⟩
theorem ldyAbsx (w : Addr) : Statement (.ldyAbsx w) :=
  ⟨rfl, rfl, rfl, fun _ => word_row (f := .ldyAbsx) w (loByte w) fun _ => of_rowB 8 rfl⟩
theorem staIndx (z : Byte) : Statement (.staIndx z) :=
  ⟨rfl, rfl, rfl, fun _ => of_row8 0 rfl⟩
theorem staZp (z : Byte) : Statement (.staZp z) :=
  ⟨rfl, rfl, rfl, fun _ => of_row8 2 rfl⟩
theorem staAbs (w : Addr) : Statement (.staAbs w) :=
  ⟨rfl, rfl, rfl, fun _ => word_row (f := .staAbs) w (loByte w) fun _ => of_row8 7 rfl⟩
theorem staIndy (z : Byte) : Statement (.staIndy z) :=
  ⟨rfl, rfl, rfl, fun _ => of_row9 1 rfl⟩
theorem staZpx (z : Byte) : Statement (.staZpx z) :=
  ⟨rfl, rfl, rfl, fun _ => of_row9 3 rfl⟩
theorem staAbsy (w : Addr) : Statement (.staAbsy w) :=
  ⟨rfl, rfl, rfl, fun _ => word_row (f := .staAbsy) w (loByte w) fun _ => of_row9 6 rfl⟩
theorem staAbsx (w : Addr) : Statement (.staAbsx w) :=
  ⟨rfl, rfl, rfl, fun _ => word_row (f := .staAbsx) w (loByte w) fun _ => of_row9 8 rfl⟩
theorem stxZp (z : Byte) : Statement (.stxZp z) :=
  ⟨rfl, rfl, rfl, fun _ => of_row8 3 rfl⟩
theorem stxAbs (w : Addr) : Statement (.stxAbs w) :=
  ⟨rfl, rfl, rfl, fun _ => word_row (f := .stxAbs) w (loByte w) fun _ => of_row8 8 rfl⟩
theorem stxZpy (z : Byte) : Statement (.stxZpy z) :=
  ⟨rfl, rfl, rfl, fun _ => of_row9 4 rfl⟩
theorem styZp (z : Byte) : Statement (.styZp z) :=
  ⟨rfl, rfl, rfl, fun _ => of_row8 1 rfl⟩
theorem styAbs (w : Addr) : Statement (.styAbs w) :=
  ⟨rfl, rfl, rfl, fun _ => word_row (f := .styAbs) w (loByte w) fun _ => of_row8 6 rfl⟩
theorem styZpx (z : Byte) : Statement (.styZpx z) :=
  ⟨rfl, rfl, rfl, fun _ => of_row9 2 rfl⟩
theorem adcIndx (z : Byte) : Statement (.adcIndx z) :=
  ⟨rfl, rfl, rfl, fun _ => of_row6 1 rfl⟩
theorem adcZp (z : Byte) : Statement (.adcZp z) :=
  ⟨rfl, rfl, rfl, fun _ => of_row6 2 rfl⟩
theorem adcImm (i : Byte) : Statement (.adcImm i) :=
  ⟨rfl, rfl, rfl, fun _ => of_row6 5 rfl⟩
theorem adcAbs (w : Addr) : Statement (.adcAbs w) :=
  ⟨rfl, rfl, rfl, fun _ => word_row (f := .adcAbs) w (loByte w) fun _ => of_row6 8 rfl⟩
theorem adcIndy (z : Byte) : Statement (.adcIndy z) :=
  ⟨rfl, rfl, rfl, fun _ => of_row7 1 rfl⟩
theorem adcZpx (z : Byte) : Statement (.adcZpx z) :=
  ⟨rfl, rfl, rfl, fun _ => of_row7 2 rfl⟩
theorem adcAbsy (w : Addr) : Statement (.adcAbsy w) :=
  ⟨rfl, rfl, rfl, fun _ => word_row (f := .adcAbsy) w (loByte w) fun _ => of_row7 5 rfl⟩
theorem adcAbsx (w : Addr) : Statement (.adcAbsx w) :=
  ⟨rfl, rfl, rfl, fun _ => word_row (f := .adcAbsx) w (loByte w) fun _ => of_row7 6 rfl⟩
theorem sbcIndx (z : Byte) : Statement (.sbcIndx z) :=
  ⟨rfl, rfl, rfl, fun _ => of_rowE 1 rfl⟩
theorem sbcZp (z : Byte) : Statement (.sbcZp z) :=
  ⟨rfl, rfl, rfl, fun _ => of_rowE 3 rfl⟩
theorem sbcImm (i : Byte) : Statement (.sbcImm i) :=
  ⟨rfl, rfl, rfl, fun _ => of_rowE 6 rfl⟩
theorem sbcAbs (w : Addr) : Statement (.sbcAbs w) :=
  ⟨rfl, rfl, rfl, fun _ => word_row (f := .sbcAbs) w (loByte w) fun _ => of_rowE 9 rfl⟩
theorem sbcIndy (z : Byte) : Statement (.sbcIndy z) :=
  ⟨rfl, rfl, rfl, fun _ => of_rowF 1 rfl⟩
theorem sbcZpx (z : Byte) : Statement (.sbcZpx z) :=
  ⟨rfl, rfl, rfl, fun _ => of_rowF 2 rfl⟩
theorem sbcAbsy (w : Addr) : Statement (.sbcAbsy w) :=
  ⟨rfl, rfl, rfl, fun _ => word_row (f := .sbcAbsy) w (loByte w) fun _ => of_rowF 5 rfl⟩
theorem sbcAbsx (w : Addr) : Statement (.sbcAbsx w) :=
  ⟨rfl, rfl, rfl, fun _ => word_row (f := .sbcAbsx) w (loByte w) fun _ => of_rowF 6 rfl⟩
theorem cmpIndx (z : Byte) : Statement (.cmpIndx z) :=
  ⟨rfl, rfl, rfl, fun _ => of_rowC 1 rfl⟩
theorem cmpZp (z : Byte) : Statement (.cmpZp z) :=
  ⟨rfl, rfl, rfl, fun _ => of_rowC 3 rfl⟩
theorem cmpImm (i : Byte) : Statement (.cmpImm i) :=
  ⟨rfl, rfl, rfl, fun _ => of_rowC 6 rfl⟩
theorem cmpAbs (w : Addr) : Statement (.cmpAbs w) :=
  ⟨rfl, rfl, rfl, fun _ => word_row (f := .cmpAbs) w (loByte w) fun _ => of_rowC 9 rfl⟩
theorem cmpIndy (z : Byte) : Statement (.cmpIndy z) :=
  ⟨rfl, rfl, rfl, fun _ => of_rowD 1 rfl⟩
theorem cmpZpx (z : Byte) : Statement (.cmpZpx z) :=
  ⟨rfl, rfl, rfl, fun _ => of_rowD 2 rfl⟩
theorem cmpAbsy (w : Addr) : Statement (.cmpAbsy w) :=
  ⟨rfl, rfl, rfl, fun _ => word_row (f := .cmpAbsy) w (loByte w) fun _ => of_rowD 5 rfl⟩
theorem cmpAbsx (w : Addr) : Statement (.cmpAbsx w) :=
  ⟨rfl, rfl, rfl, fun _ => word_row (f := .cmpAbsx) w (loByte w) fun _ => of_rowD 6 rfl⟩
theorem cpxImm (i : Byte) : Statement (.cpxImm i) :=
  ⟨rfl, rfl, rfl, fun _ => of_rowE 0 rfl⟩
theorem cpxZp (z : Byte) : Statement (.cpxZp z) :=
  ⟨rfl, rfl, rfl, fun _ => of_rowE 2 rfl⟩
theorem cpxAbs (w : Addr) : Statement (.cpxAbs w) :=
  ⟨rfl, rfl, rfl, fun _ => word_row (f := .cpxAbs) w (loByte w) fun _ => of_rowE 8 rfl⟩
theorem cpyImm (i : Byte) : Statement (.cpyImm i) :=
  ⟨rfl, rfl, rfl, fun _ => of_rowC 0 rfl⟩
theorem cpyZp (z : Byte) : Statement (.cpyZp z) :=
  ⟨rfl, rfl, rfl, fun _ => of_rowC 2 rfl⟩
theorem cpyAbs (w : Addr) : Statement (.cpyAbs w) :=
  ⟨rfl, rfl, rfl, fun _ => word_row (f := .cpyAbs) w (loByte w) fun _ => of_rowC 8 rfl⟩
theorem andIndx (z : Byte) : Statement (.andIndx z) :=
  ⟨rfl, rfl, rfl, fun _ => of_row2 1 rfl⟩
theorem andZp (z : Byte) : Statement (.andZp z) :=
  ⟨rfl, rfl, rfl, fun _ => of_row2 3 rfl⟩
theorem andImm (i : Byte) : Statement (.andImm i) :=
  ⟨rfl, rfl, rfl, fun _ => of_row2 6 rfl⟩
theorem andAbs (w : Addr) : Statement (.andAbs w) :=
  ⟨rfl, rfl, rfl, fun _ => word_row (f := .andAbs) w (loByte w) fun _ => of_row2 9 rfl⟩
theorem andIndy (z : Byte) : Statement (.andIndy z) :=
  ⟨rfl, rfl, rfl, fun _ => of_row3 1 rfl⟩
theorem andZpx (z : Byte) : Statement (.andZpx z) :=
  ⟨rfl, rfl, rfl, fun _ => of_row3 2 rfl⟩
theorem andAbsy (w : Addr) : Statement (.andAbsy w) :=
  ⟨rfl, rfl, rfl, fun _ => word_row (f := .andAbsy) w (loByte w) fun _ => of_row3 5 rfl⟩
theorem andAbsx (w : Addr) : Statement (.andAbsx w) :=
  ⟨rfl, rfl, rfl, fun _ => word_row (f := .andAbsx) w (loByte w) fun _ => of_row3 6 rfl⟩
theorem oraIndx (z : Byte) : Statement (.oraIndx z) :=
  ⟨rfl, rfl, rfl, fun _ => of_row0 1 rfl⟩
theorem oraZp (z : Byte) : Statement (.oraZp z) :=
  ⟨rfl, rfl, rfl, fun _ => of_row0 2 rfl⟩
theorem oraImm (i : Byte) : Statement (.oraImm i) :=
  ⟨rfl, rfl, rfl, fun _ => of_row0 5 rfl⟩
theorem oraAbs (w : Addr) : Statement (.oraAbs w) :=
  ⟨rfl, rfl, rfl, fun _ => word_row (f := .oraAbs) w (loByte w) fun _ => of_row0 7 rfl⟩
theorem oraIndy (z : Byte) : Statement (.oraIndy z) :=
  ⟨rfl, rfl, rfl, fun _ => of_row1 1 rfl⟩
theorem oraZpx (z : Byte) : Statement (.oraZpx z) :=
  ⟨rfl, rfl, rfl, fun _ => of_row1 2 rfl⟩
theorem oraAbsy (w : Addr) : Statement (.oraAbsy w) :=
  ⟨rfl, rfl, rfl, fun _ => word_row (f := .oraAbsy) w (loByte w) fun _ => of_row1 5 rfl⟩
theorem oraAbsx (w : Addr) : Statement (.oraAbsx w) :=
  ⟨rfl, rfl, rfl, fun _ => word_row (f := .oraAbsx) w (loByte w) fun _ => of_row1 6 rfl⟩
theorem eorIndx (z : Byte) : Statement (.eorIndx z) :=
  ⟨rfl, rfl, rfl, fun _ => of_row4 1 rfl⟩
theorem eorZp (z : Byte) : Statement (.eorZp z) :=
  ⟨rfl, rfl, rfl, fun _ => of_row4 2 rfl⟩
theorem eorImm (i : Byte) : Statement (.eorImm i) :=
  ⟨rfl, rfl, rfl, fun _ => of_row4 5 rfl⟩
theorem eorAbs (w : Addr) : Statement (.eorAbs w) :=
  ⟨rfl, rfl, rfl, fun _ => word_row (f := .eorAbs) w (loByte w) fun _ => of_row4 8 rfl⟩
theorem eorIndy (z : Byte) : Statement (.eorIndy z) :=
  ⟨rfl, rfl, rfl, fun _ => of_row5 1 rfl⟩
theorem eorZpx (z : Byte) : Statement (.eorZpx z) :=
  ⟨rfl, rfl, rfl, fun _ => of_row5 2 rfl⟩
theorem eorAbsy (w : Addr) : Statement (.eorAbsy w) :=
  ⟨rfl, rfl, rfl, fun _ => word_row (f := .eorAbsy) w (loByte w) fun _ => of_row5 5 rfl⟩
theorem eorAbsx (w : Addr) : Statement (.eorAbsx w) :=
  ⟨rfl, rfl, rfl, fun _ => word_row (f := .eorAbsx) w (loByte w) fun _ => of_row5 6 rfl⟩
theorem bitZp (z : Byte) : Statement (.bitZp z) :=
  ⟨rfl, rfl, rfl, fun _ => of_row2 2 rfl⟩
theorem bitAbs (w : Addr) : Statement (.bitAbs w) :=
  ⟨rfl, rfl, rfl, fun _ => word_row (f := .bitAbs) w (loByte w) fun _ => of_row2 8 rfl⟩
theorem aslZp (z : Byte) : Statement (.aslZp z) :=
  ⟨rfl, rfl, rfl, fun _ => of_row0 3 rfl⟩
theorem aslAcc : Statement .aslAcc :=
  ⟨rfl, rfl, rfl, fun _ => of_row0 6 rfl⟩
theorem aslAbs (w : Addr) : Statement (.aslAbs w) :=
  ⟨rfl, rfl, rfl, fun _ => word_row (f := .aslAbs) w (loByte w) fun _ => of_row0 8 rfl⟩
theorem aslZpx (z : Byte) : Statement (.aslZpx z) :=
  ⟨rfl, rfl, rfl, fun _ => of_row1 3 rfl⟩
theorem aslAbsx (w : Addr) : Statement (.aslAbsx w) :=
  ⟨rfl, rfl, rfl, fun _ => word_row (f := .aslAbsx) w (loByte w) fun _ => of_row1 7 rfl⟩
theorem lsrZp (z : Byte) : Statement (.lsrZp z) :=
  ⟨rfl, rfl, rfl, fun _ => of_row4 3 rfl⟩
theorem lsrAcc : Statement .lsrAcc :=
  ⟨rfl, rfl, rfl, fun _ => of_row4 6 rfl⟩
theorem lsrAbs (w : Addr) : Statement (.lsrAbs w) :=
  ⟨rfl, rfl, rfl, fun _ => word_row (f := .lsrAbs) w (loByte w) fun _ => of_row4 9 rfl⟩
theorem lsrZpx (z : Byte) : Statement (.lsrZpx z) :=
  ⟨rfl, rfl, rfl, fun _ => of_row5 3 rfl⟩
theorem lsrAbsx (w : Addr) : Statement (.lsrAbsx w) :=
  ⟨rfl, rfl, rfl, fun _ => word_row (f := .lsrAbsx) w (loByte w) fun _ => of_row5 7 rfl⟩
theorem rolZp (z : Byte) : Statement (.rolZp z) :=
  ⟨rfl, rfl, rfl, fun _ => of_row2 4 rfl⟩
theorem rolAcc : Statement .rolAcc :=
  ⟨rfl, rfl, rfl, fun _ => of_row2 7 rfl⟩
theorem rolAbs (w : Addr) : Statement (.rolAbs w) :=
  ⟨rfl, rfl, rfl, fun _ => word_row (f := .rolAbs) w (loByte w) fun _ => of_row2 10 rfl⟩
theorem rolZpx (z : Byte) : Statement (.rolZpx z) :=
  ⟨rfl, rfl, rfl, fun _ => of_row3 3 rfl⟩
theorem rolAbsx (w : Addr) : Statement (.rolAbsx w) :=
  ⟨rfl, rfl, rfl, fun _ => word_row (f := .rolAbsx) w (loByte w) fun _ => of_row3 7 rfl⟩
theorem rorZp (z : Byte) : Statement (.rorZp z) :=
  ⟨rfl, rfl, rfl, fun _ => of_row6 3 rfl⟩
theorem rorAcc : Statement .rorAcc :=
  ⟨rfl, rfl, rfl, fun _ => of_row6 6 rfl⟩
theorem rorAbs (w : Addr) : Statement (.rorAbs w) :=
  ⟨rfl, rfl, rfl, fun _ => word_row (f := .rorAbs) w (loByte w) fun _ => of_row6 9 rfl⟩
theorem rorZpx (z : Byte) : Statement (.rorZpx z) :=
  ⟨rfl, rfl, rfl, fun _ => of_row7 3 rfl⟩
theorem rorAbsx (w : Addr) : Statement (.rorAbsx w) :=
  ⟨rfl, rfl, rfl, fun _ => word_row (f := .rorAbsx) w (loByte w) fun _ => of_row7 7 rfl⟩
theorem incZp (z : Byte) : Statement (.incZp z) :=
  ⟨rfl, rfl, rfl, fun _ => of_rowE 4 rfl⟩
theorem incAbs (w : Addr) : Statement (.incAbs w) :=
  ⟨rfl, rfl, rfl, fun _ => word_row (f := .incAbs) w (loByte w) fun _ => of_rowE 10 rfl⟩
theorem incZpx (z : Byte) : Statement (.incZpx z) :=
  ⟨rfl, rfl, rfl, fun _ => of_rowF 3 rfl⟩
theorem incAbsx (w : Addr) : Statement (.incAbsx w) :=
  ⟨rfl, rfl, rfl, fun _ => word_row (f := .incAbsx) w (loByte w) fun _ => of_rowF 7 rfl⟩
theorem decZp (z : Byte) : Statement (.decZp z) :=
  ⟨rfl, rfl, rfl, fun _ => of_rowC 4 rfl⟩
theorem decAbs (w : Addr) : Statement (.decAbs w) :=
  ⟨rfl, rfl, rfl, fun _ => word_row (f := .decAbs) w (loByte w) fun _ => of_rowC 10 rfl⟩
theorem decZpx (z : Byte) : Statement (.decZpx z) :=
  ⟨rfl, rfl, rfl, fun _ => of_rowD 3 rfl⟩
theorem decAbsx (w : Addr) : Statement (.decAbsx w) :=
  ⟨rfl, rfl, rfl, fun _ => word_row (f := .decAbsx) w (loByte w) fun _ => of_rowD 7 rfl⟩
theorem inx : Statement .inx :=
  ⟨rfl, rfl, rfl, fun _ => of_rowE 5 rfl⟩
theorem iny : Statement .iny :=
  ⟨rfl, rfl, rfl, fun _ => of_rowC 5 rfl⟩
theorem dex : Statement .dex :=
  ⟨rfl, rfl, rfl, fun _ => of_rowC 7 rfl⟩
theorem dey : Statement .dey :=
  ⟨rfl, rfl, rfl, fun _ => of_row8 4 rfl⟩
theorem tax : Statement .tax :=
  ⟨rfl, rfl, rfl, fun _ => of_rowA 8 rfl⟩
theorem tay : Statement .tay :=
  ⟨rfl, rfl, rfl, fun _ => of_rowA 6 rfl⟩
theorem txa : Statement .txa :=
  ⟨rfl, rfl, rfl, fun _ => of_row8 5 rfl⟩
theorem tya : Statement .tya :=
  ⟨rfl, rfl, rfl, fun _ => of_row9 5 rfl⟩
theorem tsx : Statement .tsx :=
  ⟨rfl, rfl, rfl, fun _ => of_rowB 7 rfl⟩
theorem txs : Statement .txs :=
  ⟨rfl, rfl, rfl, fun _ => of_row9 7 rfl⟩
theorem clc : Statement .clc :=
  ⟨rfl, rfl, rfl, fun _ => of_row1 4 rfl⟩
theorem sec : Statement .sec :=
  ⟨rfl, rfl, rfl, fun _ => of_row3 4 rfl⟩
theorem cli : Statement .cli :=
  ⟨rfl, rfl, rfl, fun _ => of_row5 4 rfl⟩
theorem sei : Statement .sei :=
  ⟨rfl, rfl, rfl, fun _ => of_row7 4 rfl⟩
theorem clv : Statement .clv :=
  ⟨rfl, rfl, rfl, fun _ => of_rowB 5 rfl⟩
theorem cld : Statement .cld :=
  ⟨rfl, rfl, rfl, fun _ => of_rowD 4 rfl⟩
theorem sed : Statement .sed :=
  ⟨rfl, rfl, rfl, fun _ => of_rowF 4 rfl⟩
theorem bcc (r : Byte) : Statement (.bcc r) :=
  ⟨rfl, rfl, rfl, fun _ => of_row9 0 rfl⟩
theorem bcs (r : Byte) : Statement (.bcs r) :=
  ⟨rfl, rfl, rfl, fun _ => of_rowB 0 rfl⟩
theorem beq (r : Byte) : Statement (.beq r) :=
  ⟨rfl, rfl, rfl, fun _ => of_rowF 0 rfl⟩
theorem bne (r : Byte) : Statement (.bne r) :=
  ⟨rfl, rfl, rfl, fun _ => of_rowD 0 rfl⟩
theorem bmi (r : Byte) : Statement (.bmi r) :=
  ⟨rfl, rfl, rfl, fun _ => of_row3 0 rfl⟩
theorem bpl (r : Byte) : Statement (.bpl r) :=
  ⟨rfl, rfl, rfl, fun _ => of_row1 0 rfl⟩
theorem bvc (r : Byte) : Statement (.bvc r) :=
  ⟨rfl, rfl, rfl, fun _ => of_row5 0 rfl⟩
theorem bvs (r : Byte) : Statement (.bvs r) :=
  ⟨rfl, rfl, rfl, fun _ => of_row7 0 rfl⟩
theorem jmpAbs (w : Addr) : Statement (.jmpAbs w) :=
  ⟨rfl, rfl, rfl, fun _ => word_row (f := .jmpAbs) w (loByte w) fun _ => of_row4 7 rfl⟩
theorem jmpInd (w : Addr) : Statement (.jmpInd w) :=
  ⟨rfl, rfl, rfl, fun _ => word_row (f := .jmpInd) w (loByte w) fun _ => of_row6 7 rfl⟩
theorem jsr (w : Addr) : Statement (.jsr w) :=
  ⟨rfl, rfl, rfl, fun _ => word_row (f := .jsr) w (loByte w) fun _ => of_row2 0 rfl⟩
theorem rts : Statement .rts :=
  ⟨rfl, rfl, rfl, fun _ => of_row6 0 rfl⟩
theorem pha : Statement .pha :=
  ⟨rfl, rfl, rfl, fun _ => of_row4 4 rfl⟩
theorem pla : Statement .pla :=
  ⟨rfl, rfl, rfl, fun _ => of_row6 4 rfl⟩
theorem php : Statement .php :=
  ⟨rfl, rfl, rfl, fun _ => of_row0 4 rfl⟩
theorem plp : Statement .plp :=
  ⟨rfl, rfl, rfl, fun _ => of_row2 5 rfl⟩
theorem brk (p : Byte) : Statement (.brk p) :=
  ⟨rfl, rfl, rfl, fun _ => of_row0 0 rfl⟩
theorem rti : Statement .rti :=
  ⟨rfl, rfl, rfl, fun _ => of_row4 0 rfl⟩
theorem nop : Statement .nop :=
  ⟨rfl, rfl, rfl, fun _ => of_rowE 7 rfl⟩

end Sys2Proof.Laws.EncodingForm
end

