-- ==== Sys2Proof/Laws/Run.lean ====
section
/-! SUPPORT. Runs of steps, unfolded one step at a time. -/

namespace Sys2Proof.Machine

theorem runsTo_zero (s t : State) : RunsTo 0 s t ↔ s = t :=
  ⟨fun h => Host.Outcome.next.inj h, fun h => congrArg Host.Outcome.next h⟩

/-- A run whose first step completes goes on from there. -/
theorem runsTo_succ {n : Nat} {s v : State} (t : State) (h : step s = .next v) :
    RunsTo (n + 1) s t ↔ RunsTo n v t := by
  have e : Host.Core.run core (n + 1) s = Host.Core.run core n v := by
    refine (Host.Core.run.eq_2 core s n).trans ?_
    rw [show core.step s = .next v from h]
  unfold RunsTo
  rw [e]

/-- A run of at least one step starts with a step that completes. -/
theorem exists_step_of_runsTo_succ {n : Nat} {s t : State} (h : RunsTo (n + 1) s t) :
    ∃ v, step s = .next v ∧ RunsTo n v t := by
  cases e : step s with
  | next v => exact ⟨v, rfl, (runsTo_succ t e).mp h⟩
  | fault f =>
    unfold RunsTo at h
    rw [show Host.Core.run core (n + 1) s = .fault f from
      (Host.Core.run.eq_2 core s n).trans (by rw [show core.step s = .fault f from e])] at h
    cases h
  | refused r =>
    unfold RunsTo at h
    rw [show Host.Core.run core (n + 1) s = .refused r from
      (Host.Core.run.eq_2 core s n).trans (by rw [show core.step s = .refused r from e])] at h
    cases h

end Sys2Proof.Machine
end

