-- ==== Sys2Proof/Laws/Veil.lean ====
section
/-! SUPPORT. The operations do not look at `halted`, nor at bits 3 to 5 of P: each commutes with any change
of these (`State.veil`). -/

namespace Sys2Proof.Machine

/-- A change of P by `π` and of `halted` by `η`. -/
def State.veil (π : Byte → Byte) (η : Bool → Bool) (s : State) : State :=
  (s.setP (π s.p)).setHalted (η s.halted)

/-- `π` moves no flag outside D, B and bit 5, and does not depend on them. -/
structure Unseen (π : Byte → Byte) : Prop where
  keeps : ∀ (p : Byte) (f : Flag), f ∉ [Flag.d, .b, .u] → (π p).getLsbD f.bit = p.getLsbD f.bit
  comm : ∀ (p : Byte) (f : Flag) (b : Bool), f ∉ [Flag.d, .b, .u] →
    π (setBit p f.bit b) = setBit (π p) f.bit b

theorem unseen_id : Unseen id := ⟨fun _ _ _ => rfl, fun _ _ _ _ => rfl⟩

/-- Writing two different bits. -/
theorem setBit_comm (p : Byte) {j k : Nat} (h : j ≠ k) (a b : Bool) :
    setBit (setBit p j a) k b = setBit (setBit p k b) j a := by
  refine BitVec.eq_of_getLsbD_eq fun i hi => ?_
  simp only [getLsbD_setBit _ _ _ _ hi]
  split <;> split <;> first | rfl | omega

/-- Setting D, B or bit 5 is not seen. -/
theorem unseen_setBit {f : Flag} (hf : f ∈ [Flag.d, .b, .u]) (b : Bool) :
    Unseen (fun p => setBit p f.bit b) where
  keeps p g hg := by
    have : g.bit ≠ f.bit := fun e => hg (Flag.bit_inj.mp e ▸ hf)
    rw [getLsbD_setBit _ _ _ _ g.bit_lt, if_neg this]
  comm p g c hg :=
    setBit_comm p (fun e : g.bit = f.bit => hg ((Flag.bit_inj.mp e).symm ▸ hf)) c b

namespace State

variable (s : State)

/-! ### The primitives -/

theorem veil_id_setHalted (b : Bool) : s.veil id (fun _ => b) = s.setHalted b := rfl

theorem veil_setBit (f : Flag) (b : Bool) : s.veil (fun p => setBit p f.bit b) id = s.setFlag f b := rfl

/-- A bus read gives what memory and the keyboard hold. -/
theorem read8_fst_congr {s t : State} (a : Addr) (h1 : t.mem = s.mem) (h2 : t.kbdBuf = s.kbdBuf)
    (h3 : t.kbdCur = s.kbdCur) : (t.read8 a).1 = (s.read8 a).1 := by
  unfold read8 kbdRead
  rw [h2, h3]
  split
  · split <;> rfl
  · simp [peek, h1]

section

variable {π : Byte → Byte} {η : Bool → Bool}

theorem read8_veil (a : Addr) : (s.veil π η).read8 a = ((s.read8 a).1, (s.read8 a).2.veil π η) := by
  refine Prod.ext (read8_fst_congr a rfl rfl rfl) ?_
  simp only [read8_snd]
  rfl

theorem write8_veil (a : Addr) (v : Byte) : (s.veil π η).write8 a v = (s.write8 a v).veil π η := by
  simp only [write8_eq]
  rfl

theorem setFlag_veil (hπ : Unseen π) (f : Flag) (b : Bool) (hf : f ∉ [Flag.d, .b, .u]) :
    (s.veil π η).setFlag f b = (s.setFlag f b).veil π η := by
  simp only [setFlag_eq, veil, setP_p, hπ.comm _ _ _ hf]
  rfl

theorem flag_veil (hπ : Unseen π) (f : Flag) (hf : f ∉ [Flag.d, .b, .u]) :
    (s.veil π η).flag f = s.flag f := hπ.keeps _ _ hf

theorem updateZN_veil (hπ : Unseen π) (v : Byte) :
    (s.veil π η).updateZN v = (s.updateZN v).veil π η := by
  simp only [updateZN, setFlag_veil _ hπ .z _ (by decide), setFlag_veil _ hπ .n _ (by decide)]

theorem getReg_veil (r : Reg) : (s.veil π η).getReg r = s.getReg r := by cases r <;> rfl

theorem setReg_veil (r : Reg) (v : Byte) : (s.veil π η).setReg r v = (s.setReg r v).veil π η := by
  cases r <;> rfl

theorem setPc_veil (v : Addr) : (s.veil π η).setPc v = (s.setPc v).veil π η := rfl

theorem push8_veil (v : Byte) : (s.veil π η).push8 v = (s.push8 v).veil π η := by
  simp only [push8_eq]
  rfl

theorem pop8_veil : (s.veil π η).pop8 = (s.pop8.1, s.pop8.2.veil π η) := by
  simp only [pop8_eq]
  rfl

theorem push16_veil (w : Addr) : (s.veil π η).push16 w = (s.push16 w).veil π η := by
  simp only [push16_eq]
  rfl

theorem pop16_veil : (s.veil π η).pop16 = (s.pop16.1, s.pop16.2.veil π η) := by
  simp only [pop16_eq]
  rfl

theorem read16_veil (a : Addr) : (s.veil π η).read16 a = ((s.read16 a).1, (s.read16 a).2.veil π η) := by
  simp only [read16, read8_veil]

theorem fetch8_veil : (s.veil π η).fetch8 = (s.fetch8.1, s.fetch8.2.veil π η) := by
  simp only [fetch8, show (s.veil π η).pc = s.pc from rfl, read8_veil]
  rfl

theorem fetchOperands_veil (n : Nat) :
    (s.veil π η).fetchOperands n = ((s.fetchOperands n).1, (s.fetchOperands n).2.veil π η) := by
  match n with
  | 0 => rfl
  | 1 => simp only [fetchOperands, fetch8_veil]
  | _ + 2 => simp only [fetchOperands, fetch8_veil]

/-! ### The operand classes -/

theorem effAddr_veil (m : MemMode) : ((s.veil π η).effAddr m).1 = (s.effAddr m).1 :=
  effAddr_congr m rfl rfl rfl

theorem address_veil (m : MemMode) :
    (s.veil π η).address m = ((s.address m).1, (s.address m).2.veil π η) := by
  simp only [address_eq, effAddr_veil]
  rfl

theorem readSource_veil (src : Source) :
    (s.veil π η).readSource src = ((s.readSource src).1, (s.readSource src).2.veil π η) := by
  cases src with
  | imm i => rfl
  | mem m => simp only [readSource, address_veil, read8_veil]

theorem load_veil (hπ : Unseen π) (r : Reg) (src : Source) :
    (s.veil π η).load r src = (s.load r src).veil π η := by
  simp only [load, readSource_veil, setReg_veil, updateZN_veil _ hπ]

theorem addToA_veil (hπ : Unseen π) (m : Byte) : (s.veil π η).addToA m = (s.addToA m).veil π η := by
  simp only [addToA, flag_veil _ hπ .c (by decide)]
  rw [← updateZN_veil _ hπ, ← setFlag_veil _ hπ .v _ (by decide), ← setFlag_veil _ hπ .c _ (by decide)]
  rfl

theorem adc_veil (hπ : Unseen π) (src : Source) : (s.veil π η).adc src = (s.adc src).veil π η := by
  simp only [adc, readSource_veil, addToA_veil _ hπ]

theorem sbc_veil (hπ : Unseen π) (src : Source) : (s.veil π η).sbc src = (s.sbc src).veil π η := by
  simp only [sbc, readSource_veil, addToA_veil _ hπ]

theorem compare_veil (hπ : Unseen π) (r : Reg) (src : Source) :
    (s.veil π η).compare r src = (s.compare r src).veil π η := by
  simp only [compare, readSource_veil, getReg_veil, compareFlags, setFlag_veil _ hπ .c _ (by decide),
    updateZN_veil _ hπ]

theorem logic_veil (hπ : Unseen π) (op : Byte → Byte → Byte) (src : Source) :
    (s.veil π η).logic op src = (s.logic op src).veil π η := by
  simp only [logic, readSource_veil]
  rw [← updateZN_veil _ hπ]
  rfl

theorem bitTest_veil (hπ : Unseen π) (m : MemMode) :
    (s.veil π η).bitTest m = (s.bitTest m).veil π η := by
  simp only [bitTest, readSource_veil, bitFlags]
  rw [← setFlag_veil _ hπ .v _ (by decide), ← setFlag_veil _ hπ .n _ (by decide),
    ← setFlag_veil _ hπ .z _ (by decide)]
  rfl

theorem store_veil (r : Reg) (m : MemMode) : (s.veil π η).store r m = (s.store r m).veil π η := by
  simp only [store, address_veil, getReg_veil, write8_veil]

theorem shiftFlags_veil (hπ : Unseen π) (r : Shifted) :
    (s.veil π η).shiftFlags r = (s.shiftFlags r).veil π η := by
  simp only [shiftFlags, setFlag_veil _ hπ .c _ (by decide), updateZN_veil _ hπ]

theorem shift_veil (hπ : Unseen π) (f : Bool → Byte → Shifted) (place : Place) :
    (s.veil π η).shift f place = (s.shift f place).veil π η := by
  cases place with
  | acc =>
    simp only [shift, flag_veil _ hπ .c (by decide)]
    rw [← shiftFlags_veil _ hπ]
    rfl
  | mem m =>
    simp only [shift, address_veil, read8_veil, flag_veil _ hπ .c (by decide), write8_veil,
      shiftFlags_veil _ hπ]

theorem addToMemory_veil (hπ : Unseen π) (d : Byte) (m : MemMode) :
    (s.veil π η).addToMemory d m = (s.addToMemory d m).veil π η := by
  simp only [addToMemory, address_veil, read8_veil, write8_veil, updateZN_veil _ hπ]

theorem addToReg_veil (hπ : Unseen π) (r : Reg) (d : Byte) :
    (s.veil π η).addToReg r d = (s.addToReg r d).veil π η := by
  simp only [addToReg, getReg_veil, setReg_veil, updateZN_veil _ hπ]

theorem transfer_veil (hπ : Unseen π) (v : Byte) (r : Reg) :
    (s.veil π η).transfer v r = (s.transfer v r).veil π η := by
  simp only [transfer, setReg_veil, updateZN_veil _ hπ]

theorem branch_veil (c : Bool) (r : Byte) : (s.veil π η).branch c r = (s.branch c r).veil π η := by
  cases c <;> rfl

theorem indirectTarget_veil (ptr : Addr) :
    (s.veil π η).indirectTarget ptr = ((s.indirectTarget ptr).1, (s.indirectTarget ptr).2.veil π η) := by
  simp only [indirectTarget, read8_veil]

theorem callSubroutine_veil (w : Addr) :
    (s.veil π η).callSubroutine w = (s.callSubroutine w).veil π η := by
  simp only [callSubroutine, show (s.veil π η).pc = s.pc from rfl, push16_veil]
  rfl

theorem returnFromSubroutine_veil :
    (s.veil π η).returnFromSubroutine = s.returnFromSubroutine.veil π η := by
  simp only [returnFromSubroutine, pop16_veil]
  rfl

/-- The service sequence, where the pushed status does not show the change. -/
theorem serviceSequence_veil (hπ : Unseen π) (vector : Addr) (brk : Bool)
    (hp : pushedStatus (π s.p) brk = pushedStatus s.p brk) :
    (s.veil π η).serviceSequence vector brk = (s.serviceSequence vector brk).veil π η := by
  have h16 : (s.push16 s.pc).p = s.p := by simp [push16_eq]
  simp only [serviceSequence, show (s.veil π η).pc = s.pc from rfl, push16_veil]
  have : pushedStatus ((s.push16 s.pc).veil π η).p brk = pushedStatus (s.push16 s.pc).p brk := by
    show pushedStatus (π (s.push16 s.pc).p) brk = _
    rw [h16, hp]
  rw [this, push8_veil, setFlag_veil _ hπ .i _ (by decide), read16_veil]
  rfl

end

end State

end Sys2Proof.Machine
end

