-- ==== Sys2Proof/Laws/Step.lean ====
section
/-! SUPPORT. What a step can do, said once: every instruction completes, and a step is the service, the
fetch, the instruction and the charge, or the decode fault. -/

namespace Sys2Proof.Machine

/-- Every meaning answers a next state: the core has no other fault than the decode fault (R97, R117). -/
theorem exec_next (i : Instr) (s : State) : ∃ t, exec i s = .next t := by
  cases i <;> exact ⟨_, rfl⟩

/-- An instruction that answers `u` answers no other state. -/
theorem keeps_of_next {s t u : State} (h : (.next u : Result) = .next t) (k : Keeps s u) : Keeps s t :=
  Host.Outcome.next.inj h ▸ k

/-- What every instruction but BRK keeps. -/
theorem exec_keeps (i : Instr) (s t : State) (h : exec i s = .next t) (hb : ∀ p, i ≠ .brk p) : Keeps s t :=
  match i, h, hb with
  | .ldaIndx _, h, _ => keeps_of_next h (s.keeps_load _ _)
  | .ldaZp _, h, _ => keeps_of_next h (s.keeps_load _ _)
  | .ldaImm _, h, _ => keeps_of_next h (s.keeps_load _ _)
  | .ldaAbs _, h, _ => keeps_of_next h (s.keeps_load _ _)
  | .ldaIndy _, h, _ => keeps_of_next h (s.keeps_load _ _)
  | .ldaZpx _, h, _ => keeps_of_next h (s.keeps_load _ _)
  | .ldaAbsy _, h, _ => keeps_of_next h (s.keeps_load _ _)
  | .ldaAbsx _, h, _ => keeps_of_next h (s.keeps_load _ _)
  | .ldxImm _, h, _ => keeps_of_next h (s.keeps_load _ _)
  | .ldxZp _, h, _ => keeps_of_next h (s.keeps_load _ _)
  | .ldxAbs _, h, _ => keeps_of_next h (s.keeps_load _ _)
  | .ldxZpy _, h, _ => keeps_of_next h (s.keeps_load _ _)
  | .ldxAbsy _, h, _ => keeps_of_next h (s.keeps_load _ _)
  | .ldyImm _, h, _ => keeps_of_next h (s.keeps_load _ _)
  | .ldyZp _, h, _ => keeps_of_next h (s.keeps_load _ _)
  | .ldyAbs _, h, _ => keeps_of_next h (s.keeps_load _ _)
  | .ldyZpx _, h, _ => keeps_of_next h (s.keeps_load _ _)
  | .ldyAbsx _, h, _ => keeps_of_next h (s.keeps_load _ _)
  | .staIndx _, h, _ => keeps_of_next h (s.keeps_store _ _)
  | .staZp _, h, _ => keeps_of_next h (s.keeps_store _ _)
  | .staAbs _, h, _ => keeps_of_next h (s.keeps_store _ _)
  | .staIndy _, h, _ => keeps_of_next h (s.keeps_store _ _)
  | .staZpx _, h, _ => keeps_of_next h (s.keeps_store _ _)
  | .staAbsy _, h, _ => keeps_of_next h (s.keeps_store _ _)
  | .staAbsx _, h, _ => keeps_of_next h (s.keeps_store _ _)
  | .stxZp _, h, _ => keeps_of_next h (s.keeps_store _ _)
  | .stxAbs _, h, _ => keeps_of_next h (s.keeps_store _ _)
  | .stxZpy _, h, _ => keeps_of_next h (s.keeps_store _ _)
  | .styZp _, h, _ => keeps_of_next h (s.keeps_store _ _)
  | .styAbs _, h, _ => keeps_of_next h (s.keeps_store _ _)
  | .styZpx _, h, _ => keeps_of_next h (s.keeps_store _ _)
  | .adcIndx _, h, _ => keeps_of_next h (s.keeps_adc _)
  | .adcZp _, h, _ => keeps_of_next h (s.keeps_adc _)
  | .adcImm _, h, _ => keeps_of_next h (s.keeps_adc _)
  | .adcAbs _, h, _ => keeps_of_next h (s.keeps_adc _)
  | .adcIndy _, h, _ => keeps_of_next h (s.keeps_adc _)
  | .adcZpx _, h, _ => keeps_of_next h (s.keeps_adc _)
  | .adcAbsy _, h, _ => keeps_of_next h (s.keeps_adc _)
  | .adcAbsx _, h, _ => keeps_of_next h (s.keeps_adc _)
  | .sbcIndx _, h, _ => keeps_of_next h (s.keeps_sbc _)
  | .sbcZp _, h, _ => keeps_of_next h (s.keeps_sbc _)
  | .sbcImm _, h, _ => keeps_of_next h (s.keeps_sbc _)
  | .sbcAbs _, h, _ => keeps_of_next h (s.keeps_sbc _)
  | .sbcIndy _, h, _ => keeps_of_next h (s.keeps_sbc _)
  | .sbcZpx _, h, _ => keeps_of_next h (s.keeps_sbc _)
  | .sbcAbsy _, h, _ => keeps_of_next h (s.keeps_sbc _)
  | .sbcAbsx _, h, _ => keeps_of_next h (s.keeps_sbc _)
  | .cmpIndx _, h, _ => keeps_of_next h (s.keeps_compare _ _)
  | .cmpZp _, h, _ => keeps_of_next h (s.keeps_compare _ _)
  | .cmpImm _, h, _ => keeps_of_next h (s.keeps_compare _ _)
  | .cmpAbs _, h, _ => keeps_of_next h (s.keeps_compare _ _)
  | .cmpIndy _, h, _ => keeps_of_next h (s.keeps_compare _ _)
  | .cmpZpx _, h, _ => keeps_of_next h (s.keeps_compare _ _)
  | .cmpAbsy _, h, _ => keeps_of_next h (s.keeps_compare _ _)
  | .cmpAbsx _, h, _ => keeps_of_next h (s.keeps_compare _ _)
  | .cpxImm _, h, _ => keeps_of_next h (s.keeps_compare _ _)
  | .cpxZp _, h, _ => keeps_of_next h (s.keeps_compare _ _)
  | .cpxAbs _, h, _ => keeps_of_next h (s.keeps_compare _ _)
  | .cpyImm _, h, _ => keeps_of_next h (s.keeps_compare _ _)
  | .cpyZp _, h, _ => keeps_of_next h (s.keeps_compare _ _)
  | .cpyAbs _, h, _ => keeps_of_next h (s.keeps_compare _ _)
  | .andIndx _, h, _ => keeps_of_next h (s.keeps_logic _ _)
  | .andZp _, h, _ => keeps_of_next h (s.keeps_logic _ _)
  | .andImm _, h, _ => keeps_of_next h (s.keeps_logic _ _)
  | .andAbs _, h, _ => keeps_of_next h (s.keeps_logic _ _)
  | .andIndy _, h, _ => keeps_of_next h (s.keeps_logic _ _)
  | .andZpx _, h, _ => keeps_of_next h (s.keeps_logic _ _)
  | .andAbsy _, h, _ => keeps_of_next h (s.keeps_logic _ _)
  | .andAbsx _, h, _ => keeps_of_next h (s.keeps_logic _ _)
  | .oraIndx _, h, _ => keeps_of_next h (s.keeps_logic _ _)
  | .oraZp _, h, _ => keeps_of_next h (s.keeps_logic _ _)
  | .oraImm _, h, _ => keeps_of_next h (s.keeps_logic _ _)
  | .oraAbs _, h, _ => keeps_of_next h (s.keeps_logic _ _)
  | .oraIndy _, h, _ => keeps_of_next h (s.keeps_logic _ _)
  | .oraZpx _, h, _ => keeps_of_next h (s.keeps_logic _ _)
  | .oraAbsy _, h, _ => keeps_of_next h (s.keeps_logic _ _)
  | .oraAbsx _, h, _ => keeps_of_next h (s.keeps_logic _ _)
  | .eorIndx _, h, _ => keeps_of_next h (s.keeps_logic _ _)
  | .eorZp _, h, _ => keeps_of_next h (s.keeps_logic _ _)
  | .eorImm _, h, _ => keeps_of_next h (s.keeps_logic _ _)
  | .eorAbs _, h, _ => keeps_of_next h (s.keeps_logic _ _)
  | .eorIndy _, h, _ => keeps_of_next h (s.keeps_logic _ _)
  | .eorZpx _, h, _ => keeps_of_next h (s.keeps_logic _ _)
  | .eorAbsy _, h, _ => keeps_of_next h (s.keeps_logic _ _)
  | .eorAbsx _, h, _ => keeps_of_next h (s.keeps_logic _ _)
  | .bitZp _, h, _ => keeps_of_next h (s.keeps_bitTest _)
  | .bitAbs _, h, _ => keeps_of_next h (s.keeps_bitTest _)
  | .aslZp _, h, _ => keeps_of_next h (s.keeps_shift _ _)
  | .aslAcc, h, _ => keeps_of_next h (s.keeps_shift _ _)
  | .aslAbs _, h, _ => keeps_of_next h (s.keeps_shift _ _)
  | .aslZpx _, h, _ => keeps_of_next h (s.keeps_shift _ _)
  | .aslAbsx _, h, _ => keeps_of_next h (s.keeps_shift _ _)
  | .lsrZp _, h, _ => keeps_of_next h (s.keeps_shift _ _)
  | .lsrAcc, h, _ => keeps_of_next h (s.keeps_shift _ _)
  | .lsrAbs _, h, _ => keeps_of_next h (s.keeps_shift _ _)
  | .lsrZpx _, h, _ => keeps_of_next h (s.keeps_shift _ _)
  | .lsrAbsx _, h, _ => keeps_of_next h (s.keeps_shift _ _)
  | .rolZp _, h, _ => keeps_of_next h (s.keeps_shift _ _)
  | .rolAcc, h, _ => keeps_of_next h (s.keeps_shift _ _)
  | .rolAbs _, h, _ => keeps_of_next h (s.keeps_shift _ _)
  | .rolZpx _, h, _ => keeps_of_next h (s.keeps_shift _ _)
  | .rolAbsx _, h, _ => keeps_of_next h (s.keeps_shift _ _)
  | .rorZp _, h, _ => keeps_of_next h (s.keeps_shift _ _)
  | .rorAcc, h, _ => keeps_of_next h (s.keeps_shift _ _)
  | .rorAbs _, h, _ => keeps_of_next h (s.keeps_shift _ _)
  | .rorZpx _, h, _ => keeps_of_next h (s.keeps_shift _ _)
  | .rorAbsx _, h, _ => keeps_of_next h (s.keeps_shift _ _)
  | .incZp _, h, _ => keeps_of_next h (s.keeps_addToMemory _ _)
  | .incAbs _, h, _ => keeps_of_next h (s.keeps_addToMemory _ _)
  | .incZpx _, h, _ => keeps_of_next h (s.keeps_addToMemory _ _)
  | .incAbsx _, h, _ => keeps_of_next h (s.keeps_addToMemory _ _)
  | .decZp _, h, _ => keeps_of_next h (s.keeps_addToMemory _ _)
  | .decAbs _, h, _ => keeps_of_next h (s.keeps_addToMemory _ _)
  | .decZpx _, h, _ => keeps_of_next h (s.keeps_addToMemory _ _)
  | .decAbsx _, h, _ => keeps_of_next h (s.keeps_addToMemory _ _)
  | .inx, h, _ => keeps_of_next h (s.keeps_addToReg _ _)
  | .iny, h, _ => keeps_of_next h (s.keeps_addToReg _ _)
  | .dex, h, _ => keeps_of_next h (s.keeps_addToReg _ _)
  | .dey, h, _ => keeps_of_next h (s.keeps_addToReg _ _)
  | .tax, h, _ => keeps_of_next h (s.keeps_transfer _ _)
  | .tay, h, _ => keeps_of_next h (s.keeps_transfer _ _)
  | .txa, h, _ => keeps_of_next h (s.keeps_transfer _ _)
  | .tya, h, _ => keeps_of_next h (s.keeps_transfer _ _)
  | .tsx, h, _ => keeps_of_next h (s.keeps_transfer _ _)
  | .txs, h, _ => keeps_of_next h (s.keeps_setSp _)
  | .clc, h, _ => keeps_of_next h (s.keeps_setFlag _ _ (by decide) (by decide))
  | .sec, h, _ => keeps_of_next h (s.keeps_setFlag _ _ (by decide) (by decide))
  | .cli, h, _ => keeps_of_next h (s.keeps_setFlag _ _ (by decide) (by decide))
  | .sei, h, _ => keeps_of_next h (s.keeps_setFlag _ _ (by decide) (by decide))
  | .clv, h, _ => keeps_of_next h (s.keeps_setFlag _ _ (by decide) (by decide))
  | .cld, h, _ => keeps_of_next h (s.keeps_setFlag _ _ (by decide) (by decide))
  | .sed, h, _ => keeps_of_next h (s.keeps_setFlag _ _ (by decide) (by decide))
  | .bcc _, h, _ => keeps_of_next h (s.keeps_branch _ _)
  | .bcs _, h, _ => keeps_of_next h (s.keeps_branch _ _)
  | .beq _, h, _ => keeps_of_next h (s.keeps_branch _ _)
  | .bne _, h, _ => keeps_of_next h (s.keeps_branch _ _)
  | .bmi _, h, _ => keeps_of_next h (s.keeps_branch _ _)
  | .bpl _, h, _ => keeps_of_next h (s.keeps_branch _ _)
  | .bvc _, h, _ => keeps_of_next h (s.keeps_branch _ _)
  | .bvs _, h, _ => keeps_of_next h (s.keeps_branch _ _)
  | .jmpAbs _, h, _ => keeps_of_next h (s.keeps_setPc _)
  | .jmpInd _, h, _ => keeps_of_next h ((s.keeps_indirectTarget _).trans (State.keeps_setPc _ _))
  | .jsr _, h, _ => keeps_of_next h (s.keeps_callSubroutine _)
  | .rts, h, _ => keeps_of_next h (s.keeps_returnFromSubroutine)
  | .pha, h, _ => keeps_of_next h (s.keeps_push8 _)
  | .pla, h, _ => keeps_of_next h ((s.keeps_pop8.trans (State.keeps_setReg _ .a _)).trans (State.keeps_updateZN _ _))
  | .php, h, _ => keeps_of_next h (s.keeps_push8 _)
  | .plp, h, _ => keeps_of_next h (s.keeps_pop8.trans (State.keeps_setP_pulled _ _))
  | .brk p, _, hb => absurd rfl (hb p)
  | .rti, h, _ => keeps_of_next h (s.keeps_returnFromInterrupt)
  | .nop, h, _ => keeps_of_next h (.refl s)

/-- BRK keeps what the service sequence keeps, and sets `halted` (R177). -/
theorem execBrk_keeps (p : Byte) (s : State) :
    ∃ u, exec (.brk p) s = .next (u.setHalted true) ∧ Keeps s u :=
  ⟨_, rfl, s.keeps_serviceSequence _ _⟩

theorem next_veil {t u : State} {π : Byte → Byte} {η : Bool → Bool} {r : Result}
    (h : r = .next u) (e : u = t.veil π η) : r = .next (t.veil π η) := e ▸ h

/-- An instruction that does not touch D, B or bit 5, and does not push them, does the same whatever they
and `halted` are. -/
theorem exec_veil (i : Instr) (s : State) {π : Byte → Byte} {η : Bool → Bool} (hπ : Unseen π)
    (hi : i ∉ [Instr.php, .cld, .sed, .plp, .rti]) (hb : ∀ p, i ≠ .brk p) :
    ∃ t, exec i s = .next t ∧ exec i (s.veil π η) = .next (t.veil π η) :=
  match i, hi, hb with
  | .ldaIndx _, _, _ => ⟨_, rfl, next_veil rfl (s.load_veil hπ _ _)⟩
  | .ldaZp _, _, _ => ⟨_, rfl, next_veil rfl (s.load_veil hπ _ _)⟩
  | .ldaImm _, _, _ => ⟨_, rfl, next_veil rfl (s.load_veil hπ _ _)⟩
  | .ldaAbs _, _, _ => ⟨_, rfl, next_veil rfl (s.load_veil hπ _ _)⟩
  | .ldaIndy _, _, _ => ⟨_, rfl, next_veil rfl (s.load_veil hπ _ _)⟩
  | .ldaZpx _, _, _ => ⟨_, rfl, next_veil rfl (s.load_veil hπ _ _)⟩
  | .ldaAbsy _, _, _ => ⟨_, rfl, next_veil rfl (s.load_veil hπ _ _)⟩
  | .ldaAbsx _, _, _ => ⟨_, rfl, next_veil rfl (s.load_veil hπ _ _)⟩
  | .ldxImm _, _, _ => ⟨_, rfl, next_veil rfl (s.load_veil hπ _ _)⟩
  | .ldxZp _, _, _ => ⟨_, rfl, next_veil rfl (s.load_veil hπ _ _)⟩
  | .ldxAbs _, _, _ => ⟨_, rfl, next_veil rfl (s.load_veil hπ _ _)⟩
  | .ldxZpy _, _, _ => ⟨_, rfl, next_veil rfl (s.load_veil hπ _ _)⟩
  | .ldxAbsy _, _, _ => ⟨_, rfl, next_veil rfl (s.load_veil hπ _ _)⟩
  | .ldyImm _, _, _ => ⟨_, rfl, next_veil rfl (s.load_veil hπ _ _)⟩
  | .ldyZp _, _, _ => ⟨_, rfl, next_veil rfl (s.load_veil hπ _ _)⟩
  | .ldyAbs _, _, _ => ⟨_, rfl, next_veil rfl (s.load_veil hπ _ _)⟩
  | .ldyZpx _, _, _ => ⟨_, rfl, next_veil rfl (s.load_veil hπ _ _)⟩
  | .ldyAbsx _, _, _ => ⟨_, rfl, next_veil rfl (s.load_veil hπ _ _)⟩
  | .staIndx _, _, _ => ⟨_, rfl, next_veil rfl (s.store_veil _ _)⟩
  | .staZp _, _, _ => ⟨_, rfl, next_veil rfl (s.store_veil _ _)⟩
  | .staAbs _, _, _ => ⟨_, rfl, next_veil rfl (s.store_veil _ _)⟩
  | .staIndy _, _, _ => ⟨_, rfl, next_veil rfl (s.store_veil _ _)⟩
  | .staZpx _, _, _ => ⟨_, rfl, next_veil rfl (s.store_veil _ _)⟩
  | .staAbsy _, _, _ => ⟨_, rfl, next_veil rfl (s.store_veil _ _)⟩
  | .staAbsx _, _, _ => ⟨_, rfl, next_veil rfl (s.store_veil _ _)⟩
  | .stxZp _, _, _ => ⟨_, rfl, next_veil rfl (s.store_veil _ _)⟩
  | .stxAbs _, _, _ => ⟨_, rfl, next_veil rfl (s.store_veil _ _)⟩
  | .stxZpy _, _, _ => ⟨_, rfl, next_veil rfl (s.store_veil _ _)⟩
  | .styZp _, _, _ => ⟨_, rfl, next_veil rfl (s.store_veil _ _)⟩
  | .styAbs _, _, _ => ⟨_, rfl, next_veil rfl (s.store_veil _ _)⟩
  | .styZpx _, _, _ => ⟨_, rfl, next_veil rfl (s.store_veil _ _)⟩
  | .adcIndx _, _, _ => ⟨_, rfl, next_veil rfl (s.adc_veil hπ _)⟩
  | .adcZp _, _, _ => ⟨_, rfl, next_veil rfl (s.adc_veil hπ _)⟩
  | .adcImm _, _, _ => ⟨_, rfl, next_veil rfl (s.adc_veil hπ _)⟩
  | .adcAbs _, _, _ => ⟨_, rfl, next_veil rfl (s.adc_veil hπ _)⟩
  | .adcIndy _, _, _ => ⟨_, rfl, next_veil rfl (s.adc_veil hπ _)⟩
  | .adcZpx _, _, _ => ⟨_, rfl, next_veil rfl (s.adc_veil hπ _)⟩
  | .adcAbsy _, _, _ => ⟨_, rfl, next_veil rfl (s.adc_veil hπ _)⟩
  | .adcAbsx _, _, _ => ⟨_, rfl, next_veil rfl (s.adc_veil hπ _)⟩
  | .sbcIndx _, _, _ => ⟨_, rfl, next_veil rfl (s.sbc_veil hπ _)⟩
  | .sbcZp _, _, _ => ⟨_, rfl, next_veil rfl (s.sbc_veil hπ _)⟩
  | .sbcImm _, _, _ => ⟨_, rfl, next_veil rfl (s.sbc_veil hπ _)⟩
  | .sbcAbs _, _, _ => ⟨_, rfl, next_veil rfl (s.sbc_veil hπ _)⟩
  | .sbcIndy _, _, _ => ⟨_, rfl, next_veil rfl (s.sbc_veil hπ _)⟩
  | .sbcZpx _, _, _ => ⟨_, rfl, next_veil rfl (s.sbc_veil hπ _)⟩
  | .sbcAbsy _, _, _ => ⟨_, rfl, next_veil rfl (s.sbc_veil hπ _)⟩
  | .sbcAbsx _, _, _ => ⟨_, rfl, next_veil rfl (s.sbc_veil hπ _)⟩
  | .cmpIndx _, _, _ => ⟨_, rfl, next_veil rfl (s.compare_veil hπ _ _)⟩
  | .cmpZp _, _, _ => ⟨_, rfl, next_veil rfl (s.compare_veil hπ _ _)⟩
  | .cmpImm _, _, _ => ⟨_, rfl, next_veil rfl (s.compare_veil hπ _ _)⟩
  | .cmpAbs _, _, _ => ⟨_, rfl, next_veil rfl (s.compare_veil hπ _ _)⟩
  | .cmpIndy _, _, _ => ⟨_, rfl, next_veil rfl (s.compare_veil hπ _ _)⟩
  | .cmpZpx _, _, _ => ⟨_, rfl, next_veil rfl (s.compare_veil hπ _ _)⟩
  | .cmpAbsy _, _, _ => ⟨_, rfl, next_veil rfl (s.compare_veil hπ _ _)⟩
  | .cmpAbsx _, _, _ => ⟨_, rfl, next_veil rfl (s.compare_veil hπ _ _)⟩
  | .cpxImm _, _, _ => ⟨_, rfl, next_veil rfl (s.compare_veil hπ _ _)⟩
  | .cpxZp _, _, _ => ⟨_, rfl, next_veil rfl (s.compare_veil hπ _ _)⟩
  | .cpxAbs _, _, _ => ⟨_, rfl, next_veil rfl (s.compare_veil hπ _ _)⟩
  | .cpyImm _, _, _ => ⟨_, rfl, next_veil rfl (s.compare_veil hπ _ _)⟩
  | .cpyZp _, _, _ => ⟨_, rfl, next_veil rfl (s.compare_veil hπ _ _)⟩
  | .cpyAbs _, _, _ => ⟨_, rfl, next_veil rfl (s.compare_veil hπ _ _)⟩
  | .andIndx _, _, _ => ⟨_, rfl, next_veil rfl (s.logic_veil hπ _ _)⟩
  | .andZp _, _, _ => ⟨_, rfl, next_veil rfl (s.logic_veil hπ _ _)⟩
  | .andImm _, _, _ => ⟨_, rfl, next_veil rfl (s.logic_veil hπ _ _)⟩
  | .andAbs _, _, _ => ⟨_, rfl, next_veil rfl (s.logic_veil hπ _ _)⟩
  | .andIndy _, _, _ => ⟨_, rfl, next_veil rfl (s.logic_veil hπ _ _)⟩
  | .andZpx _, _, _ => ⟨_, rfl, next_veil rfl (s.logic_veil hπ _ _)⟩
  | .andAbsy _, _, _ => ⟨_, rfl, next_veil rfl (s.logic_veil hπ _ _)⟩
  | .andAbsx _, _, _ => ⟨_, rfl, next_veil rfl (s.logic_veil hπ _ _)⟩
  | .oraIndx _, _, _ => ⟨_, rfl, next_veil rfl (s.logic_veil hπ _ _)⟩
  | .oraZp _, _, _ => ⟨_, rfl, next_veil rfl (s.logic_veil hπ _ _)⟩
  | .oraImm _, _, _ => ⟨_, rfl, next_veil rfl (s.logic_veil hπ _ _)⟩
  | .oraAbs _, _, _ => ⟨_, rfl, next_veil rfl (s.logic_veil hπ _ _)⟩
  | .oraIndy _, _, _ => ⟨_, rfl, next_veil rfl (s.logic_veil hπ _ _)⟩
  | .oraZpx _, _, _ => ⟨_, rfl, next_veil rfl (s.logic_veil hπ _ _)⟩
  | .oraAbsy _, _, _ => ⟨_, rfl, next_veil rfl (s.logic_veil hπ _ _)⟩
  | .oraAbsx _, _, _ => ⟨_, rfl, next_veil rfl (s.logic_veil hπ _ _)⟩
  | .eorIndx _, _, _ => ⟨_, rfl, next_veil rfl (s.logic_veil hπ _ _)⟩
  | .eorZp _, _, _ => ⟨_, rfl, next_veil rfl (s.logic_veil hπ _ _)⟩
  | .eorImm _, _, _ => ⟨_, rfl, next_veil rfl (s.logic_veil hπ _ _)⟩
  | .eorAbs _, _, _ => ⟨_, rfl, next_veil rfl (s.logic_veil hπ _ _)⟩
  | .eorIndy _, _, _ => ⟨_, rfl, next_veil rfl (s.logic_veil hπ _ _)⟩
  | .eorZpx _, _, _ => ⟨_, rfl, next_veil rfl (s.logic_veil hπ _ _)⟩
  | .eorAbsy _, _, _ => ⟨_, rfl, next_veil rfl (s.logic_veil hπ _ _)⟩
  | .eorAbsx _, _, _ => ⟨_, rfl, next_veil rfl (s.logic_veil hπ _ _)⟩
  | .bitZp _, _, _ => ⟨_, rfl, next_veil rfl (s.bitTest_veil hπ _)⟩
  | .bitAbs _, _, _ => ⟨_, rfl, next_veil rfl (s.bitTest_veil hπ _)⟩
  | .aslZp _, _, _ => ⟨_, rfl, next_veil rfl (s.shift_veil hπ _ _)⟩
  | .aslAcc, _, _ => ⟨_, rfl, next_veil rfl (s.shift_veil hπ _ _)⟩
  | .aslAbs _, _, _ => ⟨_, rfl, next_veil rfl (s.shift_veil hπ _ _)⟩
  | .aslZpx _, _, _ => ⟨_, rfl, next_veil rfl (s.shift_veil hπ _ _)⟩
  | .aslAbsx _, _, _ => ⟨_, rfl, next_veil rfl (s.shift_veil hπ _ _)⟩
  | .lsrZp _, _, _ => ⟨_, rfl, next_veil rfl (s.shift_veil hπ _ _)⟩
  | .lsrAcc, _, _ => ⟨_, rfl, next_veil rfl (s.shift_veil hπ _ _)⟩
  | .lsrAbs _, _, _ => ⟨_, rfl, next_veil rfl (s.shift_veil hπ _ _)⟩
  | .lsrZpx _, _, _ => ⟨_, rfl, next_veil rfl (s.shift_veil hπ _ _)⟩
  | .lsrAbsx _, _, _ => ⟨_, rfl, next_veil rfl (s.shift_veil hπ _ _)⟩
  | .rolZp _, _, _ => ⟨_, rfl, next_veil rfl (s.shift_veil hπ _ _)⟩
  | .rolAcc, _, _ => ⟨_, rfl, next_veil rfl (s.shift_veil hπ _ _)⟩
  | .rolAbs _, _, _ => ⟨_, rfl, next_veil rfl (s.shift_veil hπ _ _)⟩
  | .rolZpx _, _, _ => ⟨_, rfl, next_veil rfl (s.shift_veil hπ _ _)⟩
  | .rolAbsx _, _, _ => ⟨_, rfl, next_veil rfl (s.shift_veil hπ _ _)⟩
  | .rorZp _, _, _ => ⟨_, rfl, next_veil rfl (s.shift_veil hπ _ _)⟩
  | .rorAcc, _, _ => ⟨_, rfl, next_veil rfl (s.shift_veil hπ _ _)⟩
  | .rorAbs _, _, _ => ⟨_, rfl, next_veil rfl (s.shift_veil hπ _ _)⟩
  | .rorZpx _, _, _ => ⟨_, rfl, next_veil rfl (s.shift_veil hπ _ _)⟩
  | .rorAbsx _, _, _ => ⟨_, rfl, next_veil rfl (s.shift_veil hπ _ _)⟩
  | .incZp _, _, _ => ⟨_, rfl, next_veil rfl (s.addToMemory_veil hπ _ _)⟩
  | .incAbs _, _, _ => ⟨_, rfl, next_veil rfl (s.addToMemory_veil hπ _ _)⟩
  | .incZpx _, _, _ => ⟨_, rfl, next_veil rfl (s.addToMemory_veil hπ _ _)⟩
  | .incAbsx _, _, _ => ⟨_, rfl, next_veil rfl (s.addToMemory_veil hπ _ _)⟩
  | .decZp _, _, _ => ⟨_, rfl, next_veil rfl (s.addToMemory_veil hπ _ _)⟩
  | .decAbs _, _, _ => ⟨_, rfl, next_veil rfl (s.addToMemory_veil hπ _ _)⟩
  | .decZpx _, _, _ => ⟨_, rfl, next_veil rfl (s.addToMemory_veil hπ _ _)⟩
  | .decAbsx _, _, _ => ⟨_, rfl, next_veil rfl (s.addToMemory_veil hπ _ _)⟩
  | .inx, _, _ => ⟨_, rfl, next_veil rfl (s.addToReg_veil hπ _ _)⟩
  | .iny, _, _ => ⟨_, rfl, next_veil rfl (s.addToReg_veil hπ _ _)⟩
  | .dex, _, _ => ⟨_, rfl, next_veil rfl (s.addToReg_veil hπ _ _)⟩
  | .dey, _, _ => ⟨_, rfl, next_veil rfl (s.addToReg_veil hπ _ _)⟩
  | .tax, _, _ => ⟨_, rfl, next_veil rfl (s.transfer_veil hπ _ _)⟩
  | .tay, _, _ => ⟨_, rfl, next_veil rfl (s.transfer_veil hπ _ _)⟩
  | .txa, _, _ => ⟨_, rfl, next_veil rfl (s.transfer_veil hπ _ _)⟩
  | .tya, _, _ => ⟨_, rfl, next_veil rfl (s.transfer_veil hπ _ _)⟩
  | .tsx, _, _ => ⟨_, rfl, next_veil rfl (s.transfer_veil hπ _ _)⟩
  | .txs, _, _ => ⟨_, rfl, next_veil rfl (rfl)⟩
  | .clc, _, _ => ⟨_, rfl, next_veil rfl (s.setFlag_veil hπ _ _ (by decide))⟩
  | .sec, _, _ => ⟨_, rfl, next_veil rfl (s.setFlag_veil hπ _ _ (by decide))⟩
  | .cli, _, _ => ⟨_, rfl, next_veil rfl (s.setFlag_veil hπ _ _ (by decide))⟩
  | .sei, _, _ => ⟨_, rfl, next_veil rfl (s.setFlag_veil hπ _ _ (by decide))⟩
  | .clv, _, _ => ⟨_, rfl, next_veil rfl (s.setFlag_veil hπ _ _ (by decide))⟩
  | .cld, hi, _ => absurd (by decide) hi
  | .sed, hi, _ => absurd (by decide) hi
  | .bcc r, _, _ => ⟨_, rfl, next_veil rfl (by rw [← s.branch_veil]; exact congrArg (State.branch · r (s.veil π η)) (congrArg (!·) (s.flag_veil hπ .c (by decide))))⟩
  | .bcs r, _, _ => ⟨_, rfl, next_veil rfl (by rw [← s.branch_veil]; exact congrArg (State.branch · r (s.veil π η)) (s.flag_veil hπ .c (by decide)))⟩
  | .beq r, _, _ => ⟨_, rfl, next_veil rfl (by rw [← s.branch_veil]; exact congrArg (State.branch · r (s.veil π η)) (s.flag_veil hπ .z (by decide)))⟩
  | .bne r, _, _ => ⟨_, rfl, next_veil rfl (by rw [← s.branch_veil]; exact congrArg (State.branch · r (s.veil π η)) (congrArg (!·) (s.flag_veil hπ .z (by decide))))⟩
  | .bmi r, _, _ => ⟨_, rfl, next_veil rfl (by rw [← s.branch_veil]; exact congrArg (State.branch · r (s.veil π η)) (s.flag_veil hπ .n (by decide)))⟩
  | .bpl r, _, _ => ⟨_, rfl, next_veil rfl (by rw [← s.branch_veil]; exact congrArg (State.branch · r (s.veil π η)) (congrArg (!·) (s.flag_veil hπ .n (by decide))))⟩
  | .bvc r, _, _ => ⟨_, rfl, next_veil rfl (by rw [← s.branch_veil]; exact congrArg (State.branch · r (s.veil π η)) (congrArg (!·) (s.flag_veil hπ .v (by decide))))⟩
  | .bvs r, _, _ => ⟨_, rfl, next_veil rfl (by rw [← s.branch_veil]; exact congrArg (State.branch · r (s.veil π η)) (s.flag_veil hπ .v (by decide)))⟩
  | .jmpAbs _, _, _ => ⟨_, rfl, next_veil rfl (rfl)⟩
  | .jmpInd w, _, _ => ⟨_, rfl, next_veil rfl (by rw [s.indirectTarget_veil w]; rfl)⟩
  | .jsr _, _, _ => ⟨_, rfl, next_veil rfl (s.callSubroutine_veil _)⟩
  | .rts, _, _ => ⟨_, rfl, next_veil rfl (s.returnFromSubroutine_veil)⟩
  | .pha, _, _ => ⟨_, rfl, next_veil rfl (s.push8_veil _)⟩
  | .pla, _, _ => ⟨_, rfl, next_veil rfl (by rw [s.pop8_veil, ← State.updateZN_veil _ hπ]; rfl)⟩
  | .php, hi, _ => absurd (by decide) hi
  | .plp, hi, _ => absurd (by decide) hi
  | .brk p, _, hb => absurd rfl (hb p)
  | .rti, hi, _ => absurd (by decide) hi
  | .nop, _, _ => ⟨_, rfl, next_veil rfl (rfl)⟩

theorem endStep_eq_next {serviced : Bool} {i : Instr} {r : Result} {t : State}
    (h : endStep serviced i r = .next t) : ∃ v, r = .next v ∧ t = v.chargeCycles serviced i := by
  cases r with
  | next v => exact ⟨v, rfl, (Host.Outcome.next.inj h).symm⟩
  | fault f => cases h
  | refused f => cases h

/-- A completed step: the instruction fetched after the head's service, run and charged (R95). -/
theorem step_eq_next {s t : State} (h : step s = .next t) :
    ∃ i u v, s.beginStep.fetchInstr = .instr i u ∧ exec i u = .next v ∧
      t = v.chargeCycles s.interruptDue i := by
  unfold step at h
  split at h
  · cases h
  · next i u hf =>
    obtain ⟨v, hv, ht⟩ := endStep_eq_next h
    exact ⟨i, u, v, hf, hv, ht⟩

namespace State

variable (s : State)

/-- Fetching a byte moves PC, and the keyboard cursor where PC is IO_KBD (R93). -/
theorem fetch8_eq :
    s.fetch8 = ((s.read8 s.pc).1, (s.setKbdCur (s.curAfterRead s.pc)).setPc (s.pc + 1#16)) := by
  simp only [fetch8, read8_snd]
  rfl

/-- The fetch ends at an instruction of the opcode's row, or at the opcode alone (R95, R191). -/
theorem fetchInstr_cases :
    (s.fetch8.1 ∈ notImplementedOpcodes ∧
      s.fetchInstr = .notImplemented s.fetch8.1 s.fetch8.2) ∨
    ∃ n i, opcodeOperandBytes s.fetch8.1 = some n ∧ operandBytes i = n ∧
      decodeOp s.fetch8.1 (s.fetch8.2.fetchOperands n).1.1 (s.fetch8.2.fetchOperands n).1.2 = some i ∧
      s.fetchInstr = .instr i (s.fetch8.2.fetchOperands n).2 := by
  cases hn : opcodeOperandBytes s.fetch8.1 with
  | none =>
    refine .inl ⟨(opcodeOperandBytes_eq_none_iff _).mp hn, ?_⟩
    simp only [fetchInstr, hn]
  | some n =>
    obtain ⟨i, hi, hin⟩ := decodeOp_of_operandBytes hn
      (s.fetch8.2.fetchOperands n).1.1 (s.fetch8.2.fetchOperands n).1.2
    exact .inr ⟨n, i, rfl, hin, hi, by simp only [fetchInstr, hn, hi]⟩

/-- The fetch keeps what its bus reads keep. -/
theorem fetchInstr_keeps {s u : State} {i : Instr} (h : s.fetchInstr = .instr i u) : Keeps s u := by
  rcases fetchInstr_cases s with ⟨-, h2⟩ | ⟨n, j, -, -, -, h2⟩
  · rw [h] at h2; cases h2
  · rw [h] at h2; cases h2
    exact s.keeps_fetch8.trans (keeps_fetchOperands _ _)

/-- The opcode of the fetched instruction is the first byte fetched. -/
theorem fetchInstr_opcode {s u : State} {i : Instr} (h : s.fetchInstr = .instr i u) :
    opcodeOf i = s.fetch8.1 := by
  rcases fetchInstr_cases s with ⟨-, h2⟩ | ⟨n, j, -, -, h3, h2⟩
  · rw [h] at h2; cases h2
  · rw [h] at h2; cases h2
    have := encode_of_row ((decodeOp_eq_some_iff _ _ _ _).mp h3)
    rw [opcodeOf, this]
    rfl

/-- The fetch does not look at D, B, bit 5 or `halted`. -/
theorem fetchInstr_veil {s u : State} {i : Instr} {π : Byte → Byte} {η : Bool → Bool}
    (h : s.fetchInstr = .instr i u) : (s.veil π η).fetchInstr = .instr i (u.veil π η) := by
  unfold fetchInstr at h ⊢
  rw [fetch8_veil]
  cases hn : opcodeOperandBytes s.fetch8.1 with
  | none => simp [hn] at h
  | some n =>
    simp only [hn, fetchOperands_veil] at h ⊢
    cases hd : decodeOp s.fetch8.1 (s.fetch8.2.fetchOperands n).1.1 (s.fetch8.2.fetchOperands n).1.2 with
    | none => simp [hd] at h
    | some j =>
      simp only [hd] at h ⊢
      cases h
      rfl

/-- The head of a step keeps what the service keeps, but for the latches (R182): the NMI latch is clear
after it, and the IRQ latch stays where it was masked or an NMI came first. -/
theorem beginStep_keeps : ∃ v, Keeps s v ∧ s.beginStep =
    (v.setNmiPending false).setIrqPending (s.irqPending && (s.nmiPending || s.flag .i)) := by
  have k0 : Keeps s ((s.setPageCross false).setTaken false) :=
    (s.keeps_setPageCross _).trans (keeps_setTaken _ _)
  have nmi : ∀ x : State, x.nmiPending = false → x.setNmiPending false = x := by
    rintro ⟨⟩ h; cases h; rfl
  have irq : ∀ (x : State) (b : Bool), x.irqPending = b → x.setIrqPending b = x := by
    rintro ⟨⟩ b h; cases h; rfl
  unfold beginStep
  rcases serviceInterrupts_cases ((s.setPageCross false).setTaken false) with
    ⟨h1, h2⟩ | ⟨h1, h2, h3, h4⟩ | ⟨h1, h2⟩
  · have k := k0.trans (keeps_serviceSequence _ Config.nmiVector false)
    refine ⟨_, k, h2.trans ?_⟩
    simp only [setTaken_nmiPending, setPageCross_nmiPending] at h1
    simp only [h1, Bool.true_or, Bool.and_true]
    exact (irq (setNmiPending false (serviceSequence Config.nmiVector false _)) _ k.irqPending).symm
  · have k := k0.trans (keeps_serviceSequence _ Config.irqVector false)
    refine ⟨_, k, h4.trans ?_⟩
    simp only [setTaken_nmiPending, setPageCross_nmiPending] at h1
    simp only [flag_setTaken, flag_setPageCross] at h3
    rw [nmi _ (k.nmiPending.trans h1), h1, h3, Bool.or_false, Bool.and_false]
  · refine ⟨_, k0, h2.trans ?_⟩
    simp only [interruptDue, setTaken_nmiPending, setPageCross_nmiPending, setTaken_irqPending,
      setPageCross_irqPending, flag_setTaken, flag_setPageCross, Bool.or_eq_false_iff,
      Bool.and_eq_false_iff, Bool.not_eq_false'] at h1
    rw [nmi ((s.setPageCross false).setTaken false) h1.1, irq]
    rcases h1.2 with h | h <;> simp [h]

/-- The interrupt service does not look at `halted` (R98). -/
theorem serviceInterrupts_setHalted (b : Bool) :
    (s.setHalted b).serviceInterrupts = s.serviceInterrupts.setHalted b := by
  have ss : ∀ v, (s.setHalted b).serviceSequence v false = (s.serviceSequence v false).setHalted b :=
    fun v => serviceSequence_veil (η := fun _ => b) s unseen_id v false rfl
  rcases s.serviceInterrupts_cases with ⟨h1, h2⟩ | ⟨h1, h2, h3, h4⟩ | ⟨h1, h2⟩
  · rw [h2, serviceInterrupts, if_pos (show (s.setHalted b).nmiPending = true from h1), ss]
    rfl
  · have hn : ¬(s.setHalted b).nmiPending = true := by simp [h1]
    have hi : ((s.setHalted b).irqPending && !(s.setHalted b).flag .i) = true := by simp [h2, h3]
    rw [h4, serviceInterrupts, if_neg hn, if_pos hi, ss]
    rfl
  · simp only [interruptDue, Bool.or_eq_false_iff] at h1
    have hn : ¬(s.setHalted b).nmiPending = true := by simp [h1.1]
    have hi : ¬((s.setHalted b).irqPending && !(s.setHalted b).flag .i) = true := by
      show ¬(s.irqPending && !s.flag .i) = true
      simp [h1.2]
    rw [h2, serviceInterrupts, if_neg hn, if_neg hi]

/-- The head of a step does not look at `halted` (R98). -/
theorem beginStep_setHalted (b : Bool) : (s.setHalted b).beginStep = s.beginStep.setHalted b :=
  serviceInterrupts_setHalted ((s.setPageCross false).setTaken false) b

/-- Nor does the fetch (R98). -/
theorem fetchInstr_setHalted {s u : State} {i : Instr} (b : Bool) (h : s.fetchInstr = .instr i u) :
    (s.setHalted b).fetchInstr = .instr i (u.setHalted b) :=
  fetchInstr_veil (π := id) (η := fun _ => b) h

end State

end Sys2Proof.Machine
end

