-- ==== Sys2Proof/Tests/Slice0.lean ====
section
/-! SUPPORT. The author's own tests: byte strings the checks refuse, every constructor's decoding, one step
at a time the vectors of 95_test_vectors.md (the V-… names in the docstrings are its row names; the expected
values are the spec's), host operations, and a witness for every obligation with hypotheses. -/

namespace Sys2Proof.Tests

open Sys2Proof Sys2Proof.Machine

/-! ### Well-formedness -/

/-- R81: an instruction has an opcode byte. -/
theorem test_ill_formed_no_bytes : wellFormedCode [] = false := by decide

/-- R89: 0x02 is NotImplemented. -/
theorem test_ill_formed_not_implemented : wellFormedCode [0x02] = false := by decide

/-- R81: LDA absolute takes two operand bytes. -/
theorem test_ill_formed_operand_missing : wellFormedCode [0xAD, 0x34] = false := by decide

/-- R82: BRK takes its padding byte. -/
theorem test_ill_formed_padding_missing : wellFormedCode [0x00] = false := by decide

/-- R81: NOP takes no operand byte. -/
theorem test_ill_formed_extra_byte : wellFormedCode [0xEA, 0xEA] = false := by decide

/-- R81: LDA absolute whole. -/
theorem test_well_formed : wellFormedCode [0xAD, 0x34, 0x12] = true := by decide

/-! ### Decoding

Opcode bytes bit by bit from the `encoding` patterns of opcode_table.json; operand byte 1 is 0x34 and operand
byte 2 is 0x12, so a 16-bit operand is 0x1234 (R84). -/

/-- Every byte string of the list is the whole of its instruction. -/
abbrev Decodes (rows : List (List Byte × Instr)) : Prop :=
  rows.map (fun r => (decode r.1).toOption) = rows.map (fun r => some (r.2, []))

theorem test_decode_load_store_part1 : Decodes
    [([0b10100001, 0x34], .ldaIndx 0x34), ([0b10100101, 0x34], .ldaZp 0x34),
     ([0b10101001, 0x34], .ldaImm 0x34), ([0b10101101, 0x34, 0x12], .ldaAbs 0x1234),
     ([0b10110001, 0x34], .ldaIndy 0x34), ([0b10110101, 0x34], .ldaZpx 0x34),
     ([0b10111001, 0x34, 0x12], .ldaAbsy 0x1234), ([0b10111101, 0x34, 0x12], .ldaAbsx 0x1234),
     ([0b10100010, 0x34], .ldxImm 0x34), ([0b10100110, 0x34], .ldxZp 0x34),
     ([0b10101110, 0x34, 0x12], .ldxAbs 0x1234), ([0b10110110, 0x34], .ldxZpy 0x34)] := by decide

theorem test_decode_load_store_part2 : Decodes
    [([0b10111110, 0x34, 0x12], .ldxAbsy 0x1234), ([0b10100000, 0x34], .ldyImm 0x34),
     ([0b10100100, 0x34], .ldyZp 0x34), ([0b10101100, 0x34, 0x12], .ldyAbs 0x1234),
     ([0b10110100, 0x34], .ldyZpx 0x34), ([0b10111100, 0x34, 0x12], .ldyAbsx 0x1234),
     ([0b10000001, 0x34], .staIndx 0x34), ([0b10000101, 0x34], .staZp 0x34),
     ([0b10001101, 0x34, 0x12], .staAbs 0x1234), ([0b10010001, 0x34], .staIndy 0x34),
     ([0b10010101, 0x34], .staZpx 0x34), ([0b10011001, 0x34, 0x12], .staAbsy 0x1234)] := by decide

theorem test_decode_load_store_part3 : Decodes
    [([0b10011101, 0x34, 0x12], .staAbsx 0x1234), ([0b10000110, 0x34], .stxZp 0x34),
     ([0b10001110, 0x34, 0x12], .stxAbs 0x1234), ([0b10010110, 0x34], .stxZpy 0x34),
     ([0b10000100, 0x34], .styZp 0x34), ([0b10001100, 0x34, 0x12], .styAbs 0x1234),
     ([0b10010100, 0x34], .styZpx 0x34)] := by decide

theorem test_decode_arith_part1 : Decodes
    [([0b01100001, 0x34], .adcIndx 0x34), ([0b01100101, 0x34], .adcZp 0x34),
     ([0b01101001, 0x34], .adcImm 0x34), ([0b01101101, 0x34, 0x12], .adcAbs 0x1234),
     ([0b01110001, 0x34], .adcIndy 0x34), ([0b01110101, 0x34], .adcZpx 0x34),
     ([0b01111001, 0x34, 0x12], .adcAbsy 0x1234), ([0b01111101, 0x34, 0x12], .adcAbsx 0x1234),
     ([0b11100001, 0x34], .sbcIndx 0x34), ([0b11100101, 0x34], .sbcZp 0x34),
     ([0b11101001, 0x34], .sbcImm 0x34), ([0b11101101, 0x34, 0x12], .sbcAbs 0x1234)] := by decide

theorem test_decode_arith_part2 : Decodes
    [([0b11110001, 0x34], .sbcIndy 0x34), ([0b11110101, 0x34], .sbcZpx 0x34),
     ([0b11111001, 0x34, 0x12], .sbcAbsy 0x1234), ([0b11111101, 0x34, 0x12], .sbcAbsx 0x1234),
     ([0b11000001, 0x34], .cmpIndx 0x34), ([0b11000101, 0x34], .cmpZp 0x34),
     ([0b11001001, 0x34], .cmpImm 0x34), ([0b11001101, 0x34, 0x12], .cmpAbs 0x1234),
     ([0b11010001, 0x34], .cmpIndy 0x34), ([0b11010101, 0x34], .cmpZpx 0x34),
     ([0b11011001, 0x34, 0x12], .cmpAbsy 0x1234), ([0b11011101, 0x34, 0x12], .cmpAbsx 0x1234)] := by decide

theorem test_decode_arith_part3 : Decodes
    [([0b11100000, 0x34], .cpxImm 0x34), ([0b11100100, 0x34], .cpxZp 0x34),
     ([0b11101100, 0x34, 0x12], .cpxAbs 0x1234), ([0b11000000, 0x34], .cpyImm 0x34),
     ([0b11000100, 0x34], .cpyZp 0x34), ([0b11001100, 0x34, 0x12], .cpyAbs 0x1234)] := by decide

theorem test_decode_logic_part1 : Decodes
    [([0b00100001, 0x34], .andIndx 0x34), ([0b00100101, 0x34], .andZp 0x34),
     ([0b00101001, 0x34], .andImm 0x34), ([0b00101101, 0x34, 0x12], .andAbs 0x1234),
     ([0b00110001, 0x34], .andIndy 0x34), ([0b00110101, 0x34], .andZpx 0x34),
     ([0b00111001, 0x34, 0x12], .andAbsy 0x1234), ([0b00111101, 0x34, 0x12], .andAbsx 0x1234),
     ([0b00000001, 0x34], .oraIndx 0x34), ([0b00000101, 0x34], .oraZp 0x34),
     ([0b00001001, 0x34], .oraImm 0x34), ([0b00001101, 0x34, 0x12], .oraAbs 0x1234)] := by decide

theorem test_decode_logic_part2 : Decodes
    [([0b00010001, 0x34], .oraIndy 0x34), ([0b00010101, 0x34], .oraZpx 0x34),
     ([0b00011001, 0x34, 0x12], .oraAbsy 0x1234), ([0b00011101, 0x34, 0x12], .oraAbsx 0x1234),
     ([0b01000001, 0x34], .eorIndx 0x34), ([0b01000101, 0x34], .eorZp 0x34),
     ([0b01001001, 0x34], .eorImm 0x34), ([0b01001101, 0x34, 0x12], .eorAbs 0x1234),
     ([0b01010001, 0x34], .eorIndy 0x34), ([0b01010101, 0x34], .eorZpx 0x34),
     ([0b01011001, 0x34, 0x12], .eorAbsy 0x1234), ([0b01011101, 0x34, 0x12], .eorAbsx 0x1234)] := by decide

theorem test_decode_logic_part3 : Decodes
    [([0b00100100, 0x34], .bitZp 0x34), ([0b00101100, 0x34, 0x12], .bitAbs 0x1234)] := by decide

theorem test_decode_shift_rotate_part1 : Decodes
    [([0b00000110, 0x34], .aslZp 0x34), ([0b00001010], .aslAcc),
     ([0b00001110, 0x34, 0x12], .aslAbs 0x1234), ([0b00010110, 0x34], .aslZpx 0x34),
     ([0b00011110, 0x34, 0x12], .aslAbsx 0x1234), ([0b01000110, 0x34], .lsrZp 0x34),
     ([0b01001010], .lsrAcc), ([0b01001110, 0x34, 0x12], .lsrAbs 0x1234),
     ([0b01010110, 0x34], .lsrZpx 0x34), ([0b01011110, 0x34, 0x12], .lsrAbsx 0x1234),
     ([0b00100110, 0x34], .rolZp 0x34), ([0b00101010], .rolAcc)] := by decide

theorem test_decode_shift_rotate_part2 : Decodes
    [([0b00101110, 0x34, 0x12], .rolAbs 0x1234), ([0b00110110, 0x34], .rolZpx 0x34),
     ([0b00111110, 0x34, 0x12], .rolAbsx 0x1234), ([0b01100110, 0x34], .rorZp 0x34),
     ([0b01101010], .rorAcc), ([0b01101110, 0x34, 0x12], .rorAbs 0x1234),
     ([0b01110110, 0x34], .rorZpx 0x34), ([0b01111110, 0x34, 0x12], .rorAbsx 0x1234)] := by decide

theorem test_decode_inc_dec : Decodes
    [([0b11100110, 0x34], .incZp 0x34), ([0b11101110, 0x34, 0x12], .incAbs 0x1234),
     ([0b11110110, 0x34], .incZpx 0x34), ([0b11111110, 0x34, 0x12], .incAbsx 0x1234),
     ([0b11000110, 0x34], .decZp 0x34), ([0b11001110, 0x34, 0x12], .decAbs 0x1234),
     ([0b11010110, 0x34], .decZpx 0x34), ([0b11011110, 0x34, 0x12], .decAbsx 0x1234), ([0b11101000], .inx),
     ([0b11001000], .iny), ([0b11001010], .dex), ([0b10001000], .dey)] := by decide

theorem test_decode_transfer_flag_part1 : Decodes
    [([0b10101010], .tax), ([0b10101000], .tay), ([0b10001010], .txa), ([0b10011000], .tya),
     ([0b10111010], .tsx), ([0b10011010], .txs), ([0b00011000], .clc), ([0b00111000], .sec),
     ([0b01011000], .cli), ([0b01111000], .sei), ([0b10111000], .clv), ([0b11011000], .cld)] := by decide

theorem test_decode_transfer_flag_part2 : Decodes
    [([0b11111000], .sed)] := by decide

theorem test_decode_branch_jump : Decodes
    [([0b10010000, 0x34], .bcc 0x34), ([0b10110000, 0x34], .bcs 0x34), ([0b11110000, 0x34], .beq 0x34),
     ([0b11010000, 0x34], .bne 0x34), ([0b00110000, 0x34], .bmi 0x34), ([0b00010000, 0x34], .bpl 0x34),
     ([0b01010000, 0x34], .bvc 0x34), ([0b01110000, 0x34], .bvs 0x34),
     ([0b01001100, 0x34, 0x12], .jmpAbs 0x1234), ([0b01101100, 0x34, 0x12], .jmpInd 0x1234),
     ([0b00100000, 0x34, 0x12], .jsr 0x1234), ([0b01100000], .rts)] := by decide

theorem test_decode_stack : Decodes
    [([0b01001000], .pha), ([0b01101000], .pla), ([0b00001000], .php), ([0b00101000], .plp)] := by decide

theorem test_decode_system : Decodes
    [([0b00000000, 0x34], .brk 0x34), ([0b01000000], .rti), ([0b11101010], .nop)] := by decide

theorem test_decode_refuses_by_name :
    decode [0xFF, 0x00] = .error (.opcodeNotImplemented 0xFF) ∧ decode [] = .error .noBytes ∧
      decode [0xAD, 0x34] = .error (.operandMissing 0xAD) := ⟨rfl, rfl, rfl⟩

theorem test_decode_leaves_the_rest :
    (decode [0xA9, 0x01, 0xEA]).toOption = some (.ldaImm 0x01, [0xEA]) := by decide

/-- The table's numbering: operand byte 1 is bits 15..8, operand byte 2 bits 23..16. -/
theorem test_decode_table_word : decodeTableWord 24 0x1234AD = some (.ldaAbs 0x1234) := by decide

/-- The bits above `nbits` are zero. -/
theorem test_decode_table_word_cut : decodeTableWord 8 0x1234AD = some (.ldaAbs 0x0000) := by decide

/-! ### One step

`start` is the start state of 95_test_vectors.md Part 2. -/

def start : State := { State.reset with pc := 0x0200#16, p := 0x20#8 }

/-- Bytes at PC, and the other bytes a vector lists. -/
def code (bytes : List Byte) (cells : List (Addr × Byte)) (s : State) : State :=
  cells.foldl (fun t c => t.poke c.1 c.2) (s.placeBytes s.pc bytes)

/-- The registers, in the order of the vectors. -/
structure Regs where
  a : Byte
  x : Byte
  y : Byte
  sp : Byte
  p : Byte
  pc : Addr
  deriving DecidableEq, Repr

def regs (s : State) : Regs := ⟨s.a, s.x, s.y, s.sp, s.p, s.pc⟩

/-- What is seen of the state after one step; `none` where the step does not complete. -/
def after {α : Type} (see : State → α) (s : State) : Option α :=
  match step s with
  | .next t => some (see t)
  | _ => none

/-- What is seen of the fault a step ends in. -/
def afterFault {α : Type} (see : State → α) (s : State) : Option (Byte × α) :=
  match step s with
  | .fault (.opcodeNotImplemented op t) => some (op, see t)
  | _ => none

/-! ### Load and store -/

/-- V-LS-1. -/
theorem test_lda_zero :
    after regs (code [0xA9, 0x00] [] { start with a := 0x55#8 }) =
      some ⟨0x00#8, 0x00#8, 0x00#8, 0xFD#8, 0x22#8, 0x0202#16⟩ := by decide

/-- V-LS-2. -/
theorem test_lda_negative :
    after regs (code [0xA9, 0x80] [] start) =
      some ⟨0x80#8, 0x00#8, 0x00#8, 0xFD#8, 0xA0#8, 0x0202#16⟩ := by decide

/-- V-LS-3. -/
theorem test_lda_zp :
    after regs (code [0xA5, 0x10] [(0x0010, 0x7F)] start) =
      some ⟨0x7F#8, 0x00#8, 0x00#8, 0xFD#8, 0x20#8, 0x0202#16⟩ := by decide

/-- V-LS-4. -/
theorem test_lda_zpx_wraps :
    after regs (code [0xB5, 0xF8] [(0x0007, 0x42), (0x0107, 0x99)] { start with x := 0x0F#8 }) =
      some ⟨0x42#8, 0x0F#8, 0x00#8, 0xFD#8, 0x20#8, 0x0202#16⟩ := by decide

/-- V-LS-5. -/
theorem test_lda_absx_next_page :
    after regs (code [0xBD, 0xF0, 0x12] [(0x1310, 0x01)] { start with x := 0x20#8 }) =
      some ⟨0x01#8, 0x20#8, 0x00#8, 0xFD#8, 0x20#8, 0x0203#16⟩ := by decide

/-- V-LS-6. -/
theorem test_lda_absy_wraps :
    after regs (code [0xB9, 0xFF, 0xFF] [(0x0000, 0xC3)] { start with y := 0x01#8 }) =
      some ⟨0xC3#8, 0x00#8, 0x01#8, 0xFD#8, 0xA0#8, 0x0203#16⟩ := by decide

/-- V-LS-7. -/
theorem test_lda_indx_pointer_wraps :
    after regs (code [0xA1, 0xFE] [(0x0000, 0x12), (0x00FF, 0x34), (0x0100, 0x56), (0x1234, 0xAB)] { start with x := 0x01#8 }) =
      some ⟨0xAB#8, 0x01#8, 0x00#8, 0xFD#8, 0xA0#8, 0x0202#16⟩ := by decide

/-- V-LS-8. -/
theorem test_lda_indy_pointer_wraps :
    after regs (code [0xB1, 0xFF] [(0x0000, 0x20), (0x00FF, 0xF8), (0x2108, 0x5A)] { start with y := 0x10#8 }) =
      some ⟨0x5A#8, 0x00#8, 0x10#8, 0xFD#8, 0x20#8, 0x0202#16⟩ := by decide

/-- V-LS-9. -/
theorem test_lda_takes_a_key :
    after (fun t => (regs t, t.kbdCur)) (code [0xAD, 0x00, 0xF0] [(0xF000, 0x77)] { start with kbdBuf := [0x41#8] }) =
      some (⟨0x41#8, 0x00#8, 0x00#8, 0xFD#8, 0x20#8, 0x0203#16⟩, 1) := by decide

/-- V-LS-10. -/
theorem test_lda_no_key_left :
    after regs (code [0xAD, 0x00, 0xF0] [(0xF000, 0x77)] { start with a := 0x11#8 }) =
      some ⟨0x00#8, 0x00#8, 0x00#8, 0xFD#8, 0x22#8, 0x0203#16⟩ := by decide

/-- V-LS-11. -/
theorem test_ldx_zpy_wraps :
    after regs (code [0xB6, 0xFF] [(0x0001, 0x00)] { start with y := 0x02#8 }) =
      some ⟨0x00#8, 0x00#8, 0x02#8, 0xFD#8, 0x22#8, 0x0202#16⟩ := by decide

/-- V-LS-12. -/
theorem test_ldy_imm :
    after regs (code [0xA0, 0xFF] [] start) =
      some ⟨0x00#8, 0x00#8, 0xFF#8, 0xFD#8, 0xA0#8, 0x0202#16⟩ := by decide

/-- V-LS-13. -/
theorem test_ldy_zpx :
    after regs (code [0xB4, 0x10] [(0x0015, 0x01)] { start with x := 0x05#8 }) =
      some ⟨0x00#8, 0x05#8, 0x01#8, 0xFD#8, 0x20#8, 0x0202#16⟩ := by decide

/-- V-LS-14. -/
theorem test_sta_tty :
    after (fun t => (regs t, t.peek 0xF001#16, t.events)) (code [0x8D, 0x01, 0xF0] [] { start with a := 0x41#8, p := 0xA3#8 }) =
      some (⟨0x41#8, 0x00#8, 0x00#8, 0xFD#8, 0xA3#8, 0x0203#16⟩, 0x41#8, [.charOut 0x41#8]) := by decide

/-- V-LS-15. -/
theorem test_sta_indy :
    after (fun t => (regs t, t.peek 0x1100#16)) (code [0x91, 0x40] [(0x0040, 0xFF), (0x0041, 0x10)] { start with y := 0x01#8 }) =
      some (⟨0x00#8, 0x00#8, 0x01#8, 0xFD#8, 0x20#8, 0x0202#16⟩, 0x00#8) := by decide

/-- V-LS-16. -/
theorem test_stx_zpy_wraps :
    after (fun t => (regs t, t.peek 0x0001#16)) (code [0x96, 0xFE] [] { start with x := 0x99#8, y := 0x03#8 }) =
      some (⟨0x00#8, 0x99#8, 0x03#8, 0xFD#8, 0x20#8, 0x0202#16⟩, 0x99#8) := by decide

/-- V-LS-17. -/
theorem test_sty_abs :
    after (fun t => (regs t, t.peek 0x0300#16)) (code [0x8C, 0x00, 0x03] [] start) =
      some (⟨0x00#8, 0x00#8, 0x00#8, 0xFD#8, 0x20#8, 0x0203#16⟩, 0x00#8) := by decide

/-! ### Arithmetic -/

/-- V-AR-ADC-7F001. -/
theorem test_adc_carry_in_overflow :
    after regs (code [0x69, 0x00] [] { start with a := 0x7F#8, p := 0x21#8 }) =
      some ⟨0x80#8, 0x00#8, 0x00#8, 0xFD#8, 0xE0#8, 0x0202#16⟩ := by decide

/-- V-AR-ADC-D. -/
theorem test_adc_ignores_d :
    after regs (code [0x69, 0x09] [] { start with a := 0x09#8, p := 0x28#8 }) =
      some ⟨0x12#8, 0x00#8, 0x00#8, 0xFD#8, 0x28#8, 0x0202#16⟩ := by decide

/-- V-AR-SBC-50B01. -/
theorem test_sbc_overflow :
    after regs (code [0xE9, 0xB0] [] { start with a := 0x50#8, p := 0x21#8 }) =
      some ⟨0xA0#8, 0x00#8, 0x00#8, 0xFD#8, 0xE0#8, 0x0202#16⟩ := by decide

/-- V-AR-SBC-05050. -/
theorem test_sbc_borrow :
    after regs (code [0xE9, 0x05] [] { start with a := 0x05#8 }) =
      some ⟨0xFF#8, 0x00#8, 0x00#8, 0xFD#8, 0xA0#8, 0x0202#16⟩ := by decide

/-- V-AR-CMP-0080. -/
theorem test_cmp_borrow :
    after regs (code [0xC9, 0x80] [] start) =
      some ⟨0x00#8, 0x00#8, 0x00#8, 0xFD#8, 0xA0#8, 0x0202#16⟩ := by decide

/-- V-AR-CMP-8000. -/
theorem test_cmp_no_borrow :
    after regs (code [0xC9, 0x00] [] { start with a := 0x80#8 }) =
      some ⟨0x80#8, 0x00#8, 0x00#8, 0xFD#8, 0xA1#8, 0x0202#16⟩ := by decide

/-- V-AR-CPX. -/
theorem test_cpx_equal :
    after regs (code [0xE4, 0x10] [(0x0010, 0x0C)] { start with x := 0x0C#8 }) =
      some ⟨0x00#8, 0x0C#8, 0x00#8, 0xFD#8, 0x23#8, 0x0202#16⟩ := by decide

/-- V-AR-CPY. -/
theorem test_cpy_less :
    after regs (code [0xC0, 0x01] [] start) =
      some ⟨0x00#8, 0x00#8, 0x00#8, 0xFD#8, 0xA0#8, 0x0202#16⟩ := by decide

/-- V-AR-CMP-absx. -/
theorem test_cmp_absx :
    after regs (code [0xDD, 0xFF, 0x02] [(0x0300, 0x20)] { start with a := 0x10#8, x := 0x01#8 }) =
      some ⟨0x10#8, 0x01#8, 0x00#8, 0xFD#8, 0xA0#8, 0x0203#16⟩ := by decide

/-! ### Logic -/

/-- V-LG-1. -/
theorem test_and_zero :
    after regs (code [0x29, 0x0F] [] { start with a := 0xF0#8 }) =
      some ⟨0x00#8, 0x00#8, 0x00#8, 0xFD#8, 0x22#8, 0x0202#16⟩ := by decide

/-- V-LG-2. -/
theorem test_ora :
    after regs (code [0x09, 0x80] [] { start with a := 0x01#8 }) =
      some ⟨0x81#8, 0x00#8, 0x00#8, 0xFD#8, 0xA0#8, 0x0202#16⟩ := by decide

/-- V-LG-3. -/
theorem test_eor_zero :
    after regs (code [0x49, 0xFF] [] { start with a := 0xFF#8 }) =
      some ⟨0x00#8, 0x00#8, 0x00#8, 0xFD#8, 0x22#8, 0x0202#16⟩ := by decide

/-- V-LG-4. -/
theorem test_eor_indx :
    after regs (code [0x41, 0x20] [(0x0022, 0x00), (0x0023, 0x30), (0x3000, 0xF0)] { start with a := 0x0F#8, x := 0x02#8 }) =
      some ⟨0xFF#8, 0x02#8, 0x00#8, 0xFD#8, 0xA0#8, 0x0202#16⟩ := by decide

/-- V-LG-5. -/
theorem test_bit_zp :
    after regs (code [0x24, 0x10] [(0x0010, 0xC0)] { start with a := 0x01#8 }) =
      some ⟨0x01#8, 0x00#8, 0x00#8, 0xFD#8, 0xE2#8, 0x0202#16⟩ := by decide

/-- V-LG-6. -/
theorem test_bit_abs :
    after regs (code [0x2C, 0x00, 0x10] [(0x1000, 0x01)] { start with a := 0xFF#8, p := 0xE2#8 }) =
      some ⟨0xFF#8, 0x00#8, 0x00#8, 0xFD#8, 0x20#8, 0x0203#16⟩ := by decide

/-- V-LG-7. -/
theorem test_and_takes_a_key :
    after (fun t => (regs t, t.kbdCur)) (code [0x2D, 0x00, 0xF0] [] { start with a := 0x7F#8, kbdBuf := [0xC1#8] }) =
      some (⟨0x41#8, 0x00#8, 0x00#8, 0xFD#8, 0x20#8, 0x0203#16⟩, 1) := by decide

/-! ### Shifts and rotates -/

/-- V-SH-1. -/
theorem test_asl_out :
    after regs (code [0x0A] [] { start with a := 0x80#8 }) =
      some ⟨0x00#8, 0x00#8, 0x00#8, 0xFD#8, 0x23#8, 0x0201#16⟩ := by decide

/-- V-SH-2. -/
theorem test_asl_ignores_carry :
    after regs (code [0x0A] [] { start with a := 0x41#8, p := 0x21#8 }) =
      some ⟨0x82#8, 0x00#8, 0x00#8, 0xFD#8, 0xA0#8, 0x0201#16⟩ := by decide

/-- V-SH-3. -/
theorem test_lsr_out :
    after regs (code [0x4A] [] { start with a := 0x01#8, p := 0xA0#8 }) =
      some ⟨0x00#8, 0x00#8, 0x00#8, 0xFD#8, 0x23#8, 0x0201#16⟩ := by decide

/-- V-SH-4. -/
theorem test_lsr_zp :
    after (fun t => (regs t, t.peek 0x0010#16)) (code [0x46, 0x10] [(0x0010, 0x82)] start) =
      some (⟨0x00#8, 0x00#8, 0x00#8, 0xFD#8, 0x20#8, 0x0202#16⟩, 0x41#8) := by decide

/-- V-SH-5. -/
theorem test_rol_both :
    after regs (code [0x2A] [] { start with a := 0x80#8, p := 0x21#8 }) =
      some ⟨0x01#8, 0x00#8, 0x00#8, 0xFD#8, 0x21#8, 0x0201#16⟩ := by decide

/-- V-SH-6. -/
theorem test_rol_no_carry :
    after regs (code [0x2A] [] { start with a := 0x40#8 }) =
      some ⟨0x80#8, 0x00#8, 0x00#8, 0xFD#8, 0xA0#8, 0x0201#16⟩ := by decide

/-- V-SH-7. -/
theorem test_ror_both :
    after regs (code [0x6A] [] { start with a := 0x01#8, p := 0x21#8 }) =
      some ⟨0x80#8, 0x00#8, 0x00#8, 0xFD#8, 0xA1#8, 0x0201#16⟩ := by decide

/-- V-SH-8. -/
theorem test_ror_absx :
    after (fun t => (regs t, t.peek 0x1005#16)) (code [0x7E, 0x00, 0x10] [(0x1005, 0x02)] { start with x := 0x05#8 }) =
      some (⟨0x00#8, 0x05#8, 0x00#8, 0xFD#8, 0x20#8, 0x0203#16⟩, 0x01#8) := by decide

/-- V-SH-9. -/
theorem test_asl_tty_one_event :
    after (fun t => (regs t, t.peek 0xF001#16, t.events)) (code [0x0E, 0x01, 0xF0] [(0xF001, 0x21)] start) =
      some (⟨0x00#8, 0x00#8, 0x00#8, 0xFD#8, 0x20#8, 0x0203#16⟩, 0x42#8, [.charOut 0x42#8]) := by decide

/-! ### Increment and decrement -/

/-- V-ID-1. -/
theorem test_inc_wraps :
    after (fun t => (regs t, t.peek 0x0010#16)) (code [0xE6, 0x10] [(0x0010, 0xFF)] { start with p := 0x21#8 }) =
      some (⟨0x00#8, 0x00#8, 0x00#8, 0xFD#8, 0x23#8, 0x0202#16⟩, 0x00#8) := by decide

/-- V-ID-2. -/
theorem test_dec_wraps :
    after (fun t => (regs t, t.peek 0x0010#16)) (code [0xC6, 0x10] [(0x0010, 0x00)] start) =
      some (⟨0x00#8, 0x00#8, 0x00#8, 0xFD#8, 0xA0#8, 0x0202#16⟩, 0xFF#8) := by decide

/-- V-ID-3. -/
theorem test_dec_to_zero :
    after (fun t => (regs t, t.peek 0x0010#16)) (code [0xC6, 0x10] [(0x0010, 0x01)] start) =
      some (⟨0x00#8, 0x00#8, 0x00#8, 0xFD#8, 0x22#8, 0x0202#16⟩, 0x00#8) := by decide

/-- V-ID-4. -/
theorem test_inc_absx :
    after (fun t => (regs t, t.peek 0x1100#16)) (code [0xFE, 0xFF, 0x10] [(0x1100, 0x7F)] { start with x := 0x01#8 }) =
      some (⟨0x00#8, 0x01#8, 0x00#8, 0xFD#8, 0xA0#8, 0x0203#16⟩, 0x80#8) := by decide

/-- V-ID-5. -/
theorem test_inx_wraps :
    after regs (code [0xE8] [] { start with x := 0xFF#8, p := 0xE1#8 }) =
      some ⟨0x00#8, 0x00#8, 0x00#8, 0xFD#8, 0x63#8, 0x0201#16⟩ := by decide

/-- V-ID-6. -/
theorem test_iny_negative :
    after regs (code [0xC8] [] { start with y := 0x7F#8 }) =
      some ⟨0x00#8, 0x00#8, 0x80#8, 0xFD#8, 0xA0#8, 0x0201#16⟩ := by decide

/-- V-ID-7. -/
theorem test_dex_wraps :
    after regs (code [0xCA] [] start) =
      some ⟨0x00#8, 0xFF#8, 0x00#8, 0xFD#8, 0xA0#8, 0x0201#16⟩ := by decide

/-- V-ID-8. -/
theorem test_dey_to_zero :
    after regs (code [0x88] [] { start with y := 0x01#8 }) =
      some ⟨0x00#8, 0x00#8, 0x00#8, 0xFD#8, 0x22#8, 0x0201#16⟩ := by decide

/-- V-ID-9. -/
theorem test_inc_tty_one_event :
    after (fun t => (regs t, t.peek 0xF001#16, t.events)) (code [0xEE, 0x01, 0xF0] [(0xF001, 0x40)] start) =
      some (⟨0x00#8, 0x00#8, 0x00#8, 0xFD#8, 0x20#8, 0x0203#16⟩, 0x41#8, [.charOut 0x41#8]) := by decide

/-! ### Transfers and flag instructions -/

/-- V-TF-1. -/
theorem test_tax :
    after regs (code [0xAA] [] { start with x := 0x33#8 }) =
      some ⟨0x00#8, 0x00#8, 0x00#8, 0xFD#8, 0x22#8, 0x0201#16⟩ := by decide

/-- V-TF-2. -/
theorem test_tay :
    after regs (code [0xA8] [] { start with a := 0x80#8 }) =
      some ⟨0x80#8, 0x00#8, 0x80#8, 0xFD#8, 0xA0#8, 0x0201#16⟩ := by decide

/-- V-TF-3. -/
theorem test_txa :
    after regs (code [0x8A] [] { start with a := 0xFF#8, x := 0x01#8, p := 0xA0#8 }) =
      some ⟨0x01#8, 0x01#8, 0x00#8, 0xFD#8, 0x20#8, 0x0201#16⟩ := by decide

/-- V-TF-4. -/
theorem test_tya :
    after regs (code [0x98] [] { start with a := 0x10#8 }) =
      some ⟨0x00#8, 0x00#8, 0x00#8, 0xFD#8, 0x22#8, 0x0201#16⟩ := by decide

/-- V-TF-5. -/
theorem test_tsx :
    after regs (code [0xBA] [] start) =
      some ⟨0x00#8, 0xFD#8, 0x00#8, 0xFD#8, 0xA0#8, 0x0201#16⟩ := by decide

/-- V-TF-6. -/
theorem test_txs_no_flag :
    after regs (code [0x9A] [] start) =
      some ⟨0x00#8, 0x00#8, 0x00#8, 0x00#8, 0x20#8, 0x0201#16⟩ := by decide

/-- V-TF-7. -/
theorem test_clc_keeps_b :
    after regs (code [0x18] [] { start with p := 0xFF#8 }) =
      some ⟨0x00#8, 0x00#8, 0x00#8, 0xFD#8, 0xFE#8, 0x0201#16⟩ := by decide

/-- V-TF-8. -/
theorem test_sec :
    after regs (code [0x38] [] start) =
      some ⟨0x00#8, 0x00#8, 0x00#8, 0xFD#8, 0x21#8, 0x0201#16⟩ := by decide

/-- V-TF-9. -/
theorem test_cli :
    after regs (code [0x58] [] { start with p := 0x24#8 }) =
      some ⟨0x00#8, 0x00#8, 0x00#8, 0xFD#8, 0x20#8, 0x0201#16⟩ := by decide

/-- V-TF-10. -/
theorem test_sei :
    after regs (code [0x78] [] start) =
      some ⟨0x00#8, 0x00#8, 0x00#8, 0xFD#8, 0x24#8, 0x0201#16⟩ := by decide

/-- V-TF-11. -/
theorem test_clv :
    after regs (code [0xB8] [] { start with p := 0x60#8 }) =
      some ⟨0x00#8, 0x00#8, 0x00#8, 0xFD#8, 0x20#8, 0x0201#16⟩ := by decide

/-- V-TF-12. -/
theorem test_cld :
    after regs (code [0xD8] [] { start with p := 0x28#8 }) =
      some ⟨0x00#8, 0x00#8, 0x00#8, 0xFD#8, 0x20#8, 0x0201#16⟩ := by decide

/-- V-TF-13. -/
theorem test_sed :
    after regs (code [0xF8] [] start) =
      some ⟨0x00#8, 0x00#8, 0x00#8, 0xFD#8, 0x28#8, 0x0201#16⟩ := by decide

/-! ### Branches and jumps -/

/-- V-BR-1. -/
theorem test_beq_taken :
    after regs (code [0xF0, 0x0E] [] { start with p := 0x22#8 }) =
      some ⟨0x00#8, 0x00#8, 0x00#8, 0xFD#8, 0x22#8, 0x0210#16⟩ := by decide

/-- V-BR-2. -/
theorem test_beq_not_taken :
    after regs (code [0xF0, 0x0E] [] start) =
      some ⟨0x00#8, 0x00#8, 0x00#8, 0xFD#8, 0x20#8, 0x0202#16⟩ := by decide

/-- V-BR-3. -/
theorem test_bne_to_itself :
    after regs (code [0xD0, 0xFE] [] start) =
      some ⟨0x00#8, 0x00#8, 0x00#8, 0xFD#8, 0x20#8, 0x0200#16⟩ := by decide

/-- V-BR-4. -/
theorem test_bcc_back_128 :
    after regs (code [0x90, 0x80] [] { start with pc := 0xBFFF#16 }) =
      some ⟨0x00#8, 0x00#8, 0x00#8, 0xFD#8, 0x20#8, 0xBF81#16⟩ := by decide

/-- V-BR-5. -/
theorem test_bcs_wraps :
    after regs (code [0xB0, 0x10] [] { start with pc := 0xFFF0#16, p := 0x21#8 }) =
      some ⟨0x00#8, 0x00#8, 0x00#8, 0xFD#8, 0x21#8, 0x0002#16⟩ := by decide

/-- V-BR-6. -/
theorem test_bmi_taken :
    after regs (code [0x30, 0x02] [] { start with p := 0xA0#8 }) =
      some ⟨0x00#8, 0x00#8, 0x00#8, 0xFD#8, 0xA0#8, 0x0204#16⟩ := by decide

/-- V-BR-7. -/
theorem test_bpl_not_taken :
    after regs (code [0x10, 0x02] [] { start with p := 0xA0#8 }) =
      some ⟨0x00#8, 0x00#8, 0x00#8, 0xFD#8, 0xA0#8, 0x0202#16⟩ := by decide

/-- V-BR-8. -/
theorem test_bvc_taken :
    after regs (code [0x50, 0x7F] [] start) =
      some ⟨0x00#8, 0x00#8, 0x00#8, 0xFD#8, 0x20#8, 0x0281#16⟩ := by decide

/-- V-BR-9. -/
theorem test_bvs_not_taken :
    after regs (code [0x70, 0x7F] [] start) =
      some ⟨0x00#8, 0x00#8, 0x00#8, 0xFD#8, 0x20#8, 0x0202#16⟩ := by decide

/-- V-BR-10. -/
theorem test_bcc_not_taken :
    after regs (code [0x90, 0x05] [] { start with p := 0x21#8 }) =
      some ⟨0x00#8, 0x00#8, 0x00#8, 0xFD#8, 0x21#8, 0x0202#16⟩ := by decide

/-- V-BR-11. -/
theorem test_jmp_abs :
    after regs (code [0x4C, 0x34, 0x12] [] start) =
      some ⟨0x00#8, 0x00#8, 0x00#8, 0xFD#8, 0x20#8, 0x1234#16⟩ := by decide

/-- V-BR-12. -/
theorem test_jmp_ind_page_wrap :
    after regs (code [0x6C, 0xFF, 0x12] [(0x1200, 0x12), (0x12FF, 0x34), (0x1300, 0x56)] start) =
      some ⟨0x00#8, 0x00#8, 0x00#8, 0xFD#8, 0x20#8, 0x1234#16⟩ := by decide

/-- V-BR-13. -/
theorem test_jmp_ind :
    after regs (code [0x6C, 0x00, 0x03] [(0x0300, 0x00), (0x0301, 0x80)] start) =
      some ⟨0x00#8, 0x00#8, 0x00#8, 0xFD#8, 0x20#8, 0x8000#16⟩ := by decide

/-- V-BR-14. -/
theorem test_jsr :
    after (fun t => (regs t, t.peek 0x01FD#16, t.peek 0x01FC#16)) (code [0x20, 0x00, 0x10] [] start) =
      some (⟨0x00#8, 0x00#8, 0x00#8, 0xFB#8, 0x20#8, 0x1000#16⟩, 0x02#8, 0x02#8) := by decide

/-- V-BR-15. -/
theorem test_rts :
    after regs (code [0x60] [(0x01FC, 0x02), (0x01FD, 0x02)] { start with sp := 0xFB#8 }) =
      some ⟨0x00#8, 0x00#8, 0x00#8, 0xFD#8, 0x20#8, 0x0203#16⟩ := by decide

/-- V-BR-16. -/
theorem test_jsr_sp_wraps :
    after (fun t => (regs t, t.peek 0x0100#16, t.peek 0x01FF#16)) (code [0x20, 0x00, 0x10] [] { start with sp := 0x00#8 }) =
      some (⟨0x00#8, 0x00#8, 0x00#8, 0xFE#8, 0x20#8, 0x1000#16⟩, 0x02#8, 0x02#8) := by decide

/-- V-BR-17. -/
theorem test_rts_sp_wraps :
    after regs (code [0x60] [(0x0100, 0x33), (0x0101, 0x12)] { start with sp := 0xFF#8 }) =
      some ⟨0x00#8, 0x00#8, 0x00#8, 0x01#8, 0x20#8, 0x1234#16⟩ := by decide

/-! ### Stack -/

/-- V-SK-1. -/
theorem test_pha :
    after (fun t => (regs t, t.peek 0x01FD#16)) (code [0x48] [] { start with a := 0x5A#8 }) =
      some (⟨0x5A#8, 0x00#8, 0x00#8, 0xFC#8, 0x20#8, 0x0201#16⟩, 0x5A#8) := by decide

/-- V-SK-2. -/
theorem test_pla_negative :
    after regs (code [0x68] [(0x01FD, 0x80)] { start with sp := 0xFC#8 }) =
      some ⟨0x80#8, 0x00#8, 0x00#8, 0xFD#8, 0xA0#8, 0x0201#16⟩ := by decide

/-- V-SK-4. -/
theorem test_php_sets_bits_4_5 :
    after (fun t => (regs t, t.peek 0x01FD#16)) (code [0x08] [] { start with p := 0x04#8 }) =
      some (⟨0x00#8, 0x00#8, 0x00#8, 0xFC#8, 0x04#8, 0x0201#16⟩, 0x34#8) := by decide

/-- V-SK-5. -/
theorem test_php_all_flags :
    after (fun t => (regs t, t.peek 0x01FD#16)) (code [0x08] [] { start with p := 0xCF#8 }) =
      some (⟨0x00#8, 0x00#8, 0x00#8, 0xFC#8, 0xCF#8, 0x0201#16⟩, 0xFF#8) := by decide

/-- V-SK-6. -/
theorem test_plp_clears_b :
    after regs (code [0x28] [(0x01FD, 0xFF)] { start with sp := 0xFC#8 }) =
      some ⟨0x00#8, 0x00#8, 0x00#8, 0xFD#8, 0xEF#8, 0x0201#16⟩ := by decide

/-- V-SK-7. -/
theorem test_plp_sets_bit_5 :
    after regs (code [0x28] [(0x01FD, 0x00)] { start with sp := 0xFC#8, p := 0xFF#8 }) =
      some ⟨0x00#8, 0x00#8, 0x00#8, 0xFD#8, 0x20#8, 0x0201#16⟩ := by decide

/-- V-SK-8. -/
theorem test_pha_sp_wraps :
    after (fun t => (regs t, t.peek 0x0100#16)) (code [0x48] [] { start with a := 0x77#8, sp := 0x00#8 }) =
      some (⟨0x77#8, 0x00#8, 0x00#8, 0xFF#8, 0x20#8, 0x0201#16⟩, 0x77#8) := by decide

/-- V-SK-9. -/
theorem test_pla_sp_wraps :
    after regs (code [0x68] [(0x0100, 0x01)] { start with sp := 0xFF#8 }) =
      some ⟨0x01#8, 0x00#8, 0x00#8, 0x00#8, 0x20#8, 0x0201#16⟩ := by decide

/-! ### System -/

/-- V-SY-1. -/
theorem test_brk :
    after (fun t => (regs t, t.peek 0x01FD#16, t.peek 0x01FC#16, t.peek 0x01FB#16, t.halted)) (code [0x00, 0xAA] [(0xFFFE, 0x00), (0xFFFF, 0x90)] start) =
      some (⟨0x00#8, 0x00#8, 0x00#8, 0xFA#8, 0x24#8, 0x9000#16⟩, 0x02#8, 0x02#8, 0x30#8, true) := by decide

/-- V-SY-2. -/
theorem test_brk_keeps_d :
    after (fun t => (regs t, t.peek 0x01FD#16, t.peek 0x01FC#16, t.peek 0x01FB#16, t.halted)) (code [0x00, 0x00] [(0xFFFE, 0x34), (0xFFFF, 0x12)] { start with p := 0x29#8 }) =
      some (⟨0x00#8, 0x00#8, 0x00#8, 0xFA#8, 0x2D#8, 0x1234#16⟩, 0x02#8, 0x02#8, 0x39#8, true) := by decide

/-- V-SY-3. -/
theorem test_rti :
    after regs (code [0x40] [(0x01FB, 0xC3), (0x01FC, 0x02), (0x01FD, 0x80)] { start with sp := 0xFA#8 }) =
      some ⟨0x00#8, 0x00#8, 0x00#8, 0xFD#8, 0xE3#8, 0x8002#16⟩ := by decide

/-- V-SY-4. -/
theorem test_rti_clears_b :
    after regs (code [0x40] [(0x01FB, 0x10), (0x01FC, 0x00), (0x01FD, 0x30)] { start with sp := 0xFA#8 }) =
      some ⟨0x00#8, 0x00#8, 0x00#8, 0xFD#8, 0x20#8, 0x3000#16⟩ := by decide

/-- V-SY-5. -/
theorem test_nop :
    after regs (code [0xEA] [] { start with a := 0x01#8, x := 0x02#8, y := 0x03#8, p := 0xE3#8 }) =
      some ⟨0x01#8, 0x02#8, 0x03#8, 0xFD#8, 0xE3#8, 0x0201#16⟩ := by decide

/-! ### Interrupts -/

/-- V-INT-1. -/
theorem test_irq_and_handler :
    after (fun t => (regs t, t.peek 0x01FD#16, t.peek 0x01FC#16, t.peek 0x01FB#16, t.irqPending, t.nmiPending)) (code [0xEA] [(0x0300, 0xEA), (0xFFFE, 0x00), (0xFFFF, 0x03)] { start with irqPending := true }) =
      some (⟨0x00#8, 0x00#8, 0x00#8, 0xFA#8, 0x24#8, 0x0301#16⟩, 0x02#8, 0x00#8, 0x20#8, false, false) := by decide

/-- V-INT-2. -/
theorem test_irq_masked :
    after (fun t => (regs t, t.irqPending, t.nmiPending)) (code [0xEA] [(0x0300, 0xEA), (0xFFFE, 0x00), (0xFFFF, 0x03)] { start with p := 0x24#8, irqPending := true }) =
      some (⟨0x00#8, 0x00#8, 0x00#8, 0xFD#8, 0x24#8, 0x0201#16⟩, true, false) := by decide

/-- V-INT-3. -/
theorem test_nmi_clears_pushed_b :
    after (fun t => (regs t, t.peek 0x01FD#16, t.peek 0x01FC#16, t.peek 0x01FB#16, t.irqPending, t.nmiPending)) (code [0xEA] [(0x0300, 0xEA), (0xFFFA, 0x00), (0xFFFB, 0x03)] { start with p := 0x34#8, nmiPending := true }) =
      some (⟨0x00#8, 0x00#8, 0x00#8, 0xFA#8, 0x34#8, 0x0301#16⟩, 0x02#8, 0x00#8, 0x24#8, false, false) := by decide

/-- V-INT-4. -/
theorem test_nmi_before_irq :
    after (fun t => (regs t, t.peek 0x01FD#16, t.peek 0x01FC#16, t.peek 0x01FB#16, t.irqPending, t.nmiPending)) (code [0xEA] [(0x0300, 0xEA), (0xFFFA, 0x00), (0xFFFB, 0x03), (0xFFFE, 0x00), (0xFFFF, 0x04)] { start with irqPending := true, nmiPending := true }) =
      some (⟨0x00#8, 0x00#8, 0x00#8, 0xFA#8, 0x24#8, 0x0301#16⟩, 0x02#8, 0x00#8, 0x20#8, true, false) := by decide

/-! ### The decode fault -/

/-- V-ONI-1. -/
theorem test_not_implemented :
    afterFault regs (code [0x02, 0x00] [] { start with a := 0x12#8 }) =
      some (0x02#8, ⟨0x12#8, 0x00#8, 0x00#8, 0xFD#8, 0x20#8, 0x0201#16⟩) := by decide

/-- V-ONI-2. -/
theorem test_not_implemented_after_service :
    afterFault (fun t => (regs t, t.peek 0x01FD#16, t.peek 0x01FC#16, t.peek 0x01FB#16))
      (code [0xEA] [(0x0300, 0xFF), (0xFFFE, 0x00), (0xFFFF, 0x03)] { start with irqPending := true }) =
      some (0xFF#8, ⟨0x00#8, 0x00#8, 0x00#8, 0xFA#8, 0x24#8, 0x0301#16⟩, 0x02#8, 0x00#8, 0x20#8) := by
  decide

/-! ### The host -/

/-- What is seen of the state a `run` ends in. -/
def ran {α : Type} (see : State → α) (r : RunResult) : Option α :=
  match r with
  | .done t => some (see t)
  | _ => none

/-- What is seen of the state a host operation ends in. -/
def did {α : Type} (see : State → α) (r : HostResult) : Option α :=
  match r with
  | .done t => some (see t)
  | _ => none

/-- V-HOST-1. -/
theorem test_run_no_budget : start.run 0#64 = .failed .zeroBudget := by decide

/-- V-HOST-2. -/
theorem test_run_halted :
    ran (fun t => (t.pc, t.events)) ({ start with halted := true }.run 5#64) =
      some (0x0200#16, [.programHalted 0#64]) := by decide

/-- V-HOST-3. -/
theorem test_run_to_the_budget :
    ran (fun t => (t.pc, t.halted, t.events)) ((code [0xEA, 0xEA, 0xEA] [(0x0203, 0xEA)] start).run 3#64) =
      some (0x0203#16, false, [.programHalted 3#64]) := by decide

/-- V-HOST-4. -/
theorem test_send_no_keys : start.sendKeys [] = .failed .emptyInput := by decide

/-- V-HOST-5. -/
theorem test_send_keys_appends :
    did (fun t => (t.kbdBuf, t.kbdCur)) ({ start with kbdBuf := [0x41#8] }.sendKeys [0x42#8]) =
      some ([0x41#8, 0x42#8], 0) := by decide

/-- V-HOST-6. -/
theorem test_load_rom_last_byte :
    did (fun t => (t.peek 0xFFFF#16, t.romLoaded)) (start.loadRom [0xEA#8] 0xFFFF#16) =
      some (0xEA#8, true) := by decide

/-- V-HOST-7. -/
theorem test_load_rom_too_big : start.loadRom [0xEA#8, 0xEA#8] 0xFFFF#16 = .failed .romTooBig := by decide

/-- V-HOST-8. -/
theorem test_load_rom_empty : start.loadRom [] 0x8000#16 = .failed .romTooBig := by decide

/-- V-HOST-9. -/
theorem test_load_rom_over_tty :
    did (fun t => (t.peek 0xF001#16, t.events)) (start.loadRom [0x41#8] 0xF001#16) =
      some (0x41#8, []) := by decide

/-- V-HOST-10. -/
theorem test_load_rom_twice :
    { start with romLoaded := true }.loadRom [0xEA#8, 0xEA#8] 0xFFFF#16 = .failed .romAlreadyLoaded := by
  decide

/-- The start state of V-HOST-11. -/
def beforeBoot : State :=
  code [] [(0xFFFC, 0x00), (0xFFFD, 0xC0)]
    { start with
      a := 0x12#8, x := 0x34#8, y := 0x56#8, sp := 0x00#8, p := 0xFF#8, pc := 0x1234#16, cycles := 99#64,
      irqPending := true, nmiPending := true, halted := true, kbdBuf := [0x48#8, 0x49#8], kbdCur := 2 }

/-- V-HOST-11. -/
theorem test_boot : regs beforeBoot.boot = ⟨0x00#8, 0x00#8, 0x00#8, 0xFD#8, 0x04#8, 0xC000#16⟩ := by decide

/-- V-HOST-11. -/
theorem test_boot_clears_latches_and_rewinds :
    let t := beforeBoot.boot
    (t.irqPending, t.nmiPending, t.halted) = (false, false, false) ∧ t.cycles = 0#64 ∧
      (t.kbdCur, t.kbdBuf) = (0, [0x48#8, 0x49#8]) ∧ t.mem = beforeBoot.mem := by decide

/-- V-HOST-12. -/
theorem test_peek_at_keyboard :
    (code [] [(0xF000, 0x07)] { start with kbdBuf := [0x5A#8] }).peek 0xF000#16 = 0x07#8 := by decide

/-- V-HOST-13. -/
theorem test_poke_at_tty :
    let t := start.poke 0xF001#16 0x41#8
    (t.peek 0xF001#16, t.events) = (0x41#8, []) := by decide

/-- E6. -/
theorem test_keys_run_out :
    let s := { start with kbdBuf := [0x48#8, 0x49#8] }
    let r1 := s.read8 0xF000#16
    let r2 := r1.2.read8 0xF000#16
    let r3 := r2.2.read8 0xF000#16
    (r1.1, r2.1, r3.1, r3.2.kbdCur) = (0x48#8, 0x49#8, 0x00#8, 2) := by decide

/-- P8 from its second step on: the run ends in the fault. -/
theorem test_run_faults :
    (match (code [0xFF] [] start).run 10#64 with
      | .fault (.opcodeNotImplemented op t) => some (op, t.pc, t.halted, t.events)
      | _ => none) = some (0xFF#8, 0x0201#16, false, []) := by decide

/-! ### Placing an instruction -/

/-- The first step after reset runs the placed instruction. -/
theorem test_fetch_word_at_reset :
    after (fun t => (t.a, t.pc)) (State.reset.withFetchWord 16 0x42A9) = some (0x42#8, 0x0002#16) := by decide

/-- Also where PC lies at the keyboard register and an interrupt is pending. -/
theorem test_fetch_word_at_keyboard :
    after (fun t => (t.a, t.pc))
      ({ start with pc := 0xF000#16, nmiPending := true, kbdBuf := [0x01#8] }.withFetchWord 16 0x42A9) =
      some (0x42#8, 0xF002#16) := by decide

/-! ### Witnesses: states and operands that meet the hypotheses of the obligations -/

/-- A state with a listed byte, at a NOP, and one at an opcode that is not implemented. -/
def atNop : State := code [0xEA] [] start
def atNotImplemented : State := code [0x02] [] start

theorem witness_canonical_memory : atNop.mem.wf ∧ atNop.mem ≠ [] := by decide

/-- MemoriesThatReadAlikeAreEqual: two bytes written in either order. -/
theorem witness_memories_read_alike :
    let m := (Memory.write [] 1 0x05#8).write 0xFFFF 0x07#8
    let n := (Memory.write [] 0xFFFF 0x07#8).write 1 0x05#8
    m.wf ∧ n.wf ∧ ∀ a : Addr, m.read a.toNat = n.read a.toNat :=
  ⟨by decide, by decide, fun _ => rfl⟩

/-- The statements that read a store back (StoresByte, PushesBytes, PopGivesBackWhatWasPushed,
PokeIsReadBackAndBypassesTheBus), with SP where it wraps. -/
theorem witness_store_read_back :
    let s := { atNop with sp := 0x00#8 }
    s.mem.wf ∧ stackAddr s.sp = 0x0100#16 ∧ stackAddr (s.sp - 1#8) = 0x01FF#16 := by decide

/-- The statements that keep the flags outside a list. -/
theorem witness_other_flags : Flag.d ∉ [Flag.z, .n] ∧ Flag.v ∉ [Flag.c, .z, .n] ∧ Flag.c ∉ [Flag.b, .u] := by
  decide

theorem witness_load_form :
    (⟨[0xA1, 0x10], .ldaIndx 0x10, .a, .mem (.indx 0x10)⟩ : Form _) ∈ loadForms 0x10 0x1234 := .head _

theorem witness_store_form :
    (⟨[0x81, 0x10], .staIndx 0x10, .a, .indx 0x10⟩ : Form _) ∈ storeForms 0x10 0x1234 := .head _

theorem witness_adc_form :
    (⟨[0x61, 0x10], .adcIndx 0x10, .mem (.indx 0x10)⟩ : Form _) ∈ adcForms 0x10 0x1234 := .head _

theorem witness_sbc_form :
    (⟨[0xE1, 0x10], .sbcIndx 0x10, .mem (.indx 0x10)⟩ : Form _) ∈ sbcForms 0x10 0x1234 := .head _

theorem witness_compare_form :
    (⟨[0xC1, 0x10], .cmpIndx 0x10, .a, .mem (.indx 0x10)⟩ : Form _) ∈ compareForms 0x10 0x1234 := .head _

/-- With the highest bit of LogicWorksBitwiseOnA. -/
theorem witness_logic_form :
    (⟨[0x21, 0x10], .andIndx 0x10, .and, .mem (.indx 0x10)⟩ : Form _) ∈ logicForms 0x10 0x1234 ∧ 7 < 8 :=
  ⟨.head _, by decide⟩

theorem witness_bit_form : (⟨[0x24, 0x10], .bitZp 0x10, .zp 0x10⟩ : Form _) ∈ bitForms 0x10 0x1234 := .head _

theorem witness_shift_forms :
    (⟨[0x0A], .aslAcc, .asl⟩ : Form _) ∈ accShiftForms ∧
      (⟨[0x06, 0x10], .aslZp 0x10, .asl, .zp 0x10⟩ : Form _) ∈ memShiftForms 0x10 0x1234 := ⟨.head _, .head _⟩

theorem witness_inc_dec_form :
    (⟨[0xE6, 0x10], .incZp 0x10, 1, .zp 0x10⟩ : Form _) ∈ incDecForms 0x10 0x1234 := .head _

theorem witness_register_forms :
    (⟨[0xE8], .inx, .x, 1⟩ : Form _) ∈ stepRegForms ∧ (⟨[0xAA], .tax, .a, .x⟩ : Form _) ∈ transferForms ∧
      (⟨[0x18], .clc, .c, false⟩ : Form _) ∈ flagForms := ⟨.head _, .head _, .head _⟩

theorem witness_branch_form : (⟨[0x90, 0x80], .bcc 0x80, .c, false⟩ : Form _) ∈ branchForms 0x80 := .head _

/-- RtsReturnsToTheWordPlusOne: a JSR from canonical memory. -/
theorem witness_jsr_then_rts : atNop.mem.wf ∧ ∃ t, exec (.jsr 0x1000) atNop = .next t := ⟨by decide, _, rfl⟩

/-- ServiceSequencePushesThreeBytesAndMasks and RtiUndoesAService. -/
theorem witness_service : atNop.mem.wf ∧ 0xFFFE#16 ∈ [0xFFFA#16, 0xFFFE#16] := by decide

/-- NmiComesBeforeIrqAndIMasksIrq, first clause, and StepHeadServicesAtMostOneInterrupt, second clause. -/
theorem witness_nmi_pending :
    let s := { start with nmiPending := true, irqPending := true }
    s.nmiPending = true ∧ s.interruptDue = true := by decide

/-- NmiComesBeforeIrqAndIMasksIrq, second clause. -/
theorem witness_irq_pending :
    let s := { start with irqPending := true }
    s.nmiPending = false ∧ s.irqPending = true ∧ s.flag .i = false := by decide

/-- NmiComesBeforeIrqAndIMasksIrq, third clause in both its ways, and StepHeadServicesAtMostOneInterrupt,
first clause. -/
theorem witness_nothing_due :
    let s := { start with irqPending := true, p := 0x24#8 }
    (s.nmiPending = false ∧ s.flag .i = true ∧ s.interruptDue = false) ∧
      (start.nmiPending = false ∧ start.irqPending = false) := by decide

/-- AMaskChangeTakesEffectAtTheNextStepHead. -/
theorem witness_mask_change : Instr.rti ∈ [Instr.plp, .rti] := by decide

/-- StepRunsTheDecodedInstruction and StepAddsOneCostDrawToCycles: three bytes that wrap past 0xFFFF, and an
opcode at the keyboard register. -/
theorem witness_step_decodes :
    let s := code [0xAD, 0x34, 0x12] [] { start with pc := 0xFFFE#16 }
    let k := code [] [(0xF001, 0x42)] { start with pc := 0xF000#16, kbdBuf := [0xA9#8] }
    (∃ rest, decode (codeAt s.beginStep) = .ok (.ldaAbs 0x1234, rest)) ∧ (∃ t, step s = .next t) ∧
      (∃ rest, decode (codeAt k.beginStep) = .ok (.ldaImm 0x42, rest)) ∧ ∃ t, step k = .next t :=
  ⟨⟨_, rfl⟩, ⟨_, rfl⟩, ⟨_, rfl⟩, ⟨_, rfl⟩⟩

/-- NotImplementedOpcodeFaultsPastTheOpcode and StepEndsInNextOrNotImplementedOnly. -/
theorem witness_not_implemented :
    busValue atNotImplemented.beginStep atNotImplemented.beginStep.pc ∈ notImplementedOpcodes := by decide

/-- StepEndsInNextOrNotImplementedOnly, the other clause. -/
theorem witness_implemented : busValue atNop.beginStep atNop.beginStep.pc ∉ notImplementedOpcodes := by decide

/-- EveryStepKeepsTheInvariant; and NoStepSetsBOrClearsBit5, StepLeavesTheHostsStateAlone, OnlyBrkSetsHalted
and StepDoesNotReadHalted, whose hypothesis is a completed step. -/
theorem witness_completed_step :
    atNop.Inv ∧ atNop.flag .b = false ∧ atNop.flag .u = true ∧ ∃ t, step atNop = .next t :=
  ⟨by decide, by decide, by decide, _, rfl⟩

/-- OnlyBrkSetsHalted where BRK does. -/
theorem witness_completed_brk : ∃ t, step (code [0x00] [] start) = .next t ∧ t.halted = true := ⟨_, rfl, rfl⟩

/-- BitsFourAndFiveAreUnobservable. -/
theorem witness_unobservable_bit : Flag.b ∈ [Flag.b, .u] ∧ Flag.u ∈ [Flag.b, .u] := by decide

/-- NothingButPushedStatusDependsOnD. -/
theorem witness_d_not_read :
    Instr.adcImm 0x09 ∉ [Instr.php, .cld, .sed, .plp, .rti] ∧ ∀ p, Instr.adcImm 0x09 ≠ .brk p :=
  ⟨by decide, fun _ h => nomatch h⟩

/-- LoadRomCopiesOnce: the three clauses, the second in both its ways and where it meets the third. -/
theorem witness_load_rom :
    let loaded := { atNop with romLoaded := true }
    (loaded.mem.wf ∧ loaded.romLoaded = true) ∧
      (atNop.mem.wf ∧ atNop.romLoaded = false ∧ ([] : List Byte).length = 0) ∧
      65536 < (0xFFFF#16 : Addr).toNat + [0xEA#8, 0xEA#8].length ∧
      (0 < [0xEA#8].length ∧ (0xFFFF#16 : Addr).toNat + [0xEA#8].length ≤ 65536) := by decide

/-- StepHeadServicesAtMostOneInterrupt, the last clause for an IRQ alone, with SP where the pushes wrap. -/
theorem witness_irq_due : ({ start with irqPending := true, sp := 0x01#8 } : State).interruptDue = true := by
  decide

/-- RunStopsAtTheBudgetOrWhenHalted, the clause of a halted machine. -/
theorem witness_run_halted : (1#64 : BitVec 64) ≠ 0#64 ∧ ({ start with halted := true } : State).halted = true := by
  decide

theorem notHaltedBefore_one {s : State} (h : s.halted = false) : NotHaltedBefore 1 s := by
  intro k hk v hv
  obtain rfl : k = 0 := by omega
  cases hv
  exact h

/-- The clause of a run that returns: a budget of one used up, and a BRK that halts within five. -/
theorem witness_run_to_the_end :
    (NotHaltedBefore 1 atNop ∧ (∃ u, RunsTo 1 atNop u) ∧ 1 = (1#64 : BitVec 64).toNat) ∧
      NotHaltedBefore 1 (code [0x00] [] start) ∧ 1 ≤ (5#64 : BitVec 64).toNat ∧
      ∃ u, RunsTo 1 (code [0x00] [] start) u ∧ u.halted = true :=
  ⟨⟨notHaltedBefore_one rfl, ⟨_, rfl⟩, rfl⟩, notHaltedBefore_one rfl, by decide, _, rfl, rfl⟩

/-- The clause of a run that faults: at the first step, on a budget of one. -/
theorem witness_run_faults :
    0 < (1#64 : BitVec 64).toNat ∧ NotHaltedBefore 1 atNotImplemented ∧ RunsTo 0 atNotImplemented atNotImplemented ∧
      ∃ t, step atNotImplemented = .fault (.opcodeNotImplemented 0x02#8 t) :=
  ⟨by decide, notHaltedBefore_one rfl, rfl, _, rfl⟩

/-- The converse clause: a budget used up, and a BRK within it. -/
theorem witness_run_returns :
    (∃ t, atNop.run 1#64 = .done t) ∧ ∃ t, (code [0x00] [] start).run 5#64 = .done t :=
  ⟨⟨_, rfl⟩, ⟨_, rfl⟩⟩

/-- SentKeysAreReadInOrder, with the cursor at the end of a buffer that was read. -/
theorem witness_sent_keys :
    let s := { start with kbdBuf := [0x41#8], kbdCur := 1 }
    [0x42#8] ≠ [] ∧ s.kbdCur = s.kbdBuf.length ∧ ∃ t, s.sendKeys [0x42#8] = .done t :=
  ⟨by decide, rfl, _, rfl⟩

/-- SettersAreExact, the clause about `halted`. -/
theorem witness_other_setter : HostSet.flag .d true ≠ .clearHalted := by decide

end Sys2Proof.Tests
end

section
/-! The family 10_state.md. What a completed step does outside the registers is said once (`step_keeps`);
the obligations about the whole step are read off it, and those about bits 3 to 5 of P off `exec_veil`. -/

namespace Sys2Proof.Machine

/-! ### The bytes of the fetch -/

namespace State

variable (s : State)

/-- The value of a bus read, as the statements say it (R56, R57). -/
theorem read8_fst (a : Addr) : (s.read8 a).1 = busValue s a := by
  by_cases h : a = Config.ioKbd
  · subst h
    exact s.read8_kbd_fst
  · rw [read8_of_ne s h]
    exact (if_neg h).symm

theorem fetch8_fst : s.fetch8.1 = busValue s s.pc := by
  rw [fetch8_eq, read8_fst]

theorem fetch8_pc : s.fetch8.2.pc = s.pc + 1#16 := by
  rw [fetch8_eq, setPc_pc]

/-- A byte fetched at PC consumes a key at most when PC is IO_KBD, so it moves no other bus value. -/
theorem busValue_fetch8 {a : Addr} (h : a ≠ s.pc) : busValue s.fetch8.2 a = busValue s a := by
  rw [fetch8_eq]
  by_cases ha : a = Config.ioKbd
  · have hpc : s.pc ≠ Config.ioKbd := ha ▸ h.symm
    rw [curAfterRead_of_ne s hpc]
    rfl
  · exact (if_neg ha).trans (if_neg ha).symm

/-- The operand bytes fetched are the bus values at PC and PC + 1, as many as are taken (R93, R94). -/
theorem fetchOperands_fst {n : Nat} (hn : n ≤ 2) :
    (1 ≤ n → (s.fetchOperands n).1.1 = busValue s s.pc) ∧
    (n = 2 → (s.fetchOperands n).1.2 = busValue s (s.pc + 1#16)) := by
  have hne : s.pc + 1#16 ≠ s.pc := by simp
  match n, hn with
  | 0, _ => exact ⟨by simp, by simp⟩
  | 1, _ => exact ⟨fun _ => s.fetch8_fst, by simp⟩
  | 2, _ =>
    refine ⟨fun _ => s.fetch8_fst, fun _ => ?_⟩
    have h2 := s.fetch8.2.fetch8_fst
    rwa [fetch8_pc, busValue_fetch8 s hne] at h2

/-- Where the bytes at PC decode to `i`, the fetch finds `i` (R83, R93). -/
theorem fetchInstr_of_decode {s : State} {i : Instr} {rest : List Byte}
    (h : decode (codeAt s) = .ok (i, rest)) : ∃ u, s.fetchInstr = .instr i u := by
  have hdec : s.fetch8.1 ∉ notImplementedOpcodes ∧
      decodeOp s.fetch8.1 (busValue s (s.pc + 1#16)) (busValue s (s.pc + 2#16)) = some i := by
    rw [fetch8_fst]
    rcases decode_cons (busValue s s.pc) [busValue s (s.pc + 1#16), busValue s (s.pc + 2#16)] with
      ⟨-, he⟩ | ⟨j, hj, he⟩
    · cases h.symm.trans he
    · have hji := h.symm.trans he
      split at hji
      · cases hji
      · cases hji
        refine ⟨fun hm => ?_, hj⟩
        cases ((decodeOp_eq_none_iff _ _ _).mpr hm).symm.trans hj
  obtain ⟨himp, hi⟩ := hdec
  rcases s.fetchInstr_cases with ⟨hm, -⟩ | ⟨n, j, -, rfl, hj, hf⟩
  · exact absurd hm himp
  · obtain ⟨h1, h2⟩ := s.fetch8.2.fetchOperands_fst (operandBytes_le j)
    have hne1 : s.pc + 1#16 ≠ s.pc := by simp
    have hne2 : s.pc + 2#16 ≠ s.pc := by simp
    have hpc2 : s.pc + 1#16 + 1#16 = s.pc + 2#16 := by rw [BitVec.add_assoc]; rfl
    rw [fetch8_pc, busValue_fetch8 s hne1] at h1
    rw [fetch8_pc, hpc2, busValue_fetch8 s hne2] at h2
    have hji := decodeOp_of_used hj _ _ (fun k => (h1 k).symm) (fun k => (h2 k).symm)
    cases hji.symm.trans hi
    exact ⟨_, hf⟩

/-- Opcode 0x00 is BRK's (R86). -/
theorem decodeOp_brk (b1 b2 : Byte) : decodeOp 0x00#8 b1 b2 = some (.brk b1) :=
  (decodeOp_eq_some_iff _ _ _ _).mpr (Laws.EncodingForm.of_row0 0 rfl)

/-- The fetched instruction is BRK exactly when the opcode fetched is 0x00 (R86). -/
theorem fetchInstr_brk_iff {s u : State} {i : Instr} (h : s.fetchInstr = .instr i u) :
    busValue s s.pc = 0x00#8 ↔ ∃ p, i = .brk p := by
  rw [← fetch8_fst]
  constructor
  · intro h0
    rcases s.fetchInstr_cases with ⟨-, hf⟩ | ⟨n, j, -, -, hj, hf⟩
    · cases h.symm.trans hf
    · cases h.symm.trans hf
      rw [h0, decodeOp_brk] at hj
      exact ⟨_, (Option.some.inj hj).symm⟩
  · rintro ⟨p, rfl⟩
    exact (fetchInstr_opcode h).symm

/-! ### The latches and the charge -/

/-- The latches as the head of a step leaves them (R182), everything else untouched. -/
def latchesServed (s : State) : State :=
  (s.setNmiPending false).setIrqPending (s.irqPending && (s.nmiPending || s.flag .i))

/-- The head of a step keeps everything outside the registers but the latches. -/
theorem beginStep_keeps_latchesServed : Keeps s.latchesServed s.beginStep := by
  obtain ⟨v, k, hv⟩ := s.beginStep_keeps
  rw [hv]
  exact { k with irqPending := rfl, nmiPending := rfl }

@[simp] theorem setHalted_self : s.setHalted s.halted = s := rfl

section

variable (serviced : Bool) (i : Instr)

@[simp] theorem chargeCycles_halted : (s.chargeCycles serviced i).halted = s.halted := rfl
@[simp] theorem chargeCycles_pageCross : (s.chargeCycles serviced i).pageCross = s.pageCross := rfl
@[simp] theorem chargeCycles_taken : (s.chargeCycles serviced i).taken = s.taken := rfl
@[simp] theorem chargeCycles_draws : (s.chargeCycles serviced i).draws = s.draws + 1 := rfl
@[simp] theorem chargeCycles_cycles : (s.chargeCycles serviced i).cycles = s.cycles + BitVec.ofNat 64
    (Config.cycleCost s.draws (opcodeOf i) i.mode s.pageCross s.taken serviced) := rfl

end

end State

/-! ### The whole step -/

/-- An instruction keeps everything outside the registers, but that BRK sets `halted` (R177). -/
theorem exec_keeps_but_halted {i : Instr} {s t : State} (h : exec i s = .next t) :
    ∃ v, Keeps s v ∧ ((∃ p, i = .brk p) ∧ t = v.setHalted true ∨ (¬∃ p, i = .brk p) ∧ t = v) := by
  by_cases hb : ∃ p, i = .brk p
  · obtain ⟨p, rfl⟩ := hb
    obtain ⟨v, hv, k⟩ := execBrk_keeps p s
    exact ⟨v, k, .inl ⟨⟨p, rfl⟩, Host.Outcome.next.inj (h.symm.trans hv)⟩⟩
  · exact ⟨t, exec_keeps i s t h fun p hp => hb ⟨p, hp⟩, .inr ⟨hb, rfl⟩⟩

/-- What a completed step does outside the registers (R95): the latches are served, `halted` is set by BRK's
opcode, one cost is drawn for the instruction fetched, and all else is kept. -/
theorem step_keeps {s t : State} (h : step s = .next t) :
    ∃ i u v, s.beginStep.fetchInstr = .instr i u ∧ Keeps s.latchesServed v ∧
      t = (v.setHalted (s.halted || decide (busValue s.beginStep s.beginStep.pc = 0x00#8))).chargeCycles
        s.interruptDue i := by
  obtain ⟨i, u, w, hf, hx, rfl⟩ := step_eq_next h
  obtain ⟨v, kx, hw⟩ := exec_keeps_but_halted hx
  have k : Keeps s.latchesServed v :=
    (s.beginStep_keeps_latchesServed.trans (State.fetchInstr_keeps hf)).trans kx
  refine ⟨i, u, v, hf, k, congrArg (State.chargeCycles s.interruptDue i) ?_⟩
  rw [← State.fetchInstr_brk_iff hf] at hw
  rcases hw with ⟨hop, rfl⟩ | ⟨hop, rfl⟩
  · simp [hop]
  · have hh : s.halted = w.halted := k.halted.symm
    simp [hop, hh]

/-- Settles O46: every part of a step keeps the canonical form and the cursor's bound, by `step_keeps`. -/
theorem everyStepKeepsTheInvariant : Obligations.EveryStepKeepsTheInvariant := by
  rintro s t ⟨hmem, hcur⟩ h
  obtain ⟨i, u, v, -, k, rfl⟩ := step_keeps h
  have hv : v.kbdCur ≤ v.kbdBuf.length := by
    rw [k.kbdBuf]
    exact k.kbdCur_in hcur
  exact ⟨k.mem_wf hmem, hv⟩

/-- Settles O47, from what `step_keeps` says of the state after the head's service. -/
theorem stepLeavesTheHostsStateAlone : Obligations.StepLeavesTheHostsStateAlone := by
  intro s t h
  obtain ⟨i, u, v, -, k, rfl⟩ := step_keeps h
  exact ⟨k.nmiPending, k.irqPending, k.romLoaded, k.kbdBuf, k.kbdCur_le, k.events⟩

/-- Settles O48: `step_keeps` gives `halted` by the opcode fetched. -/
theorem onlyBrkSetsHalted : Obligations.OnlyBrkSetsHalted := by
  intro s t h
  obtain ⟨i, u, v, -, -, rfl⟩ := step_keeps h
  simp

/-- Settles O49: no operation moves bits 4 and 5 away from their values of R33 and R34. -/
theorem noStepSetsBOrClearsBit5 : Obligations.NoStepSetsBOrClearsBit5 := by
  intro s t h
  obtain ⟨i, u, v, -, k, rfl⟩ := step_keeps h
  exact ⟨k.b_clear, k.u_set⟩

/-- Settles O53: the instruction the bytes decode to is the one fetched, and the charge draws its cost with
the counters the instruction kept. -/
theorem stepAddsOneCostDrawToCycles : Obligations.StepAddsOneCostDrawToCycles := by
  intro s t i rest hdec h
  obtain ⟨j, u, v, hf, k, rfl⟩ := step_keeps h
  obtain ⟨u', hf'⟩ := State.fetchInstr_of_decode hdec
  cases hf.symm.trans hf'
  have hdraws : v.draws = s.draws := k.draws
  have hcycles : v.cycles = s.cycles := k.cycles
  simp [hdraws, hcycles]

/-! ### Bits of P that no instruction reads -/

/-- The pushed status has its own bits 4 and 5 (R38, R39). -/
theorem pushedStatus_setBit {f : Flag} (hf : f ∈ [Flag.b, .u]) (p : Byte) (b brk : Bool) :
    pushedStatus (setBit p f.bit b) brk = pushedStatus p brk := by
  simp only [List.mem_cons, List.not_mem_nil, or_false] at hf
  obtain rfl | rfl := hf <;> revert p b brk <;> decide

/-- Outside the instructions that push or write P whole, or write D, none sees D, bit 4 or bit 5. -/
theorem exec_setFlag_unseen (i : Instr) (s : State) {f : Flag} (hf : f ∈ [Flag.d, .b, .u]) (b : Bool)
    (hi : i ∉ [Instr.php, .cld, .sed, .plp, .rti]) (hb : ∀ p, i ≠ .brk p) :
    ∃ t, exec i s = .next t ∧ exec i (s.setFlag f b) = .next (t.setFlag f b) := by
  have h := exec_veil (η := id) i s (unseen_setBit hf b) hi hb
  simpa only [State.veil_setBit] using h

/-- A push of P writes its own bits 4 and 5, so it goes the same way with one of them changed. -/
theorem push8_pushedStatus_setFlag (s : State) {f : Flag} (hf : f ∈ [Flag.b, .u]) (b brk : Bool) :
    (s.setFlag f b).push8 (pushedStatus (s.setFlag f b).p brk) =
      (s.push8 (pushedStatus s.p brk)).setFlag f b := by
  have h := s.push8_veil (π := fun p => setBit p f.bit b) (η := id) (pushedStatus s.p brk)
  rw [show (s.setFlag f b).p = setBit s.p f.bit b from rfl, pushedStatus_setBit hf]
  simpa only [State.veil_setBit] using h

/-- So does the service sequence of BRK. -/
theorem serviceSequence_setFlag (s : State) {f : Flag} (hf : f ∈ [Flag.b, .u]) (b brk : Bool)
    (vector : Addr) :
    (s.setFlag f b).serviceSequence vector brk = (s.serviceSequence vector brk).setFlag f b :=
  State.serviceSequence_veil (η := id) s (unseen_setBit (List.mem_cons_of_mem _ hf) b) vector brk
    (pushedStatus_setBit hf s.p b brk)

/-- Writing D and writing bit 4 or 5 commute. -/
theorem setFlag_d_comm (s : State) {f : Flag} (hf : f ∈ [Flag.b, .u]) (b d : Bool) :
    (s.setFlag f b).setFlag .d d = (s.setFlag .d d).setFlag f b := by
  have hne : f.bit ≠ Flag.d.bit := fun h => absurd (Flag.bit_inj.mp h ▸ hf) (by decide)
  exact congrArg (State.setP · s) (setBit_comm s.p hne b d)

/-- A pull overwrites P, so it does not show what a bit of P was (R40). -/
theorem pulled_setFlag (s : State) (f : Flag) (b : Bool) :
    (s.setFlag f b).pop8.2.setP (pulledStatus (s.setFlag f b).pop8.1) =
      s.pop8.2.setP (pulledStatus s.pop8.1) := by
  simp only [State.pop8_eq]
  rfl

/-- Nor does a return from an interrupt. -/
theorem returnFromInterrupt_setFlag (s : State) (f : Flag) (b : Bool) :
    (s.setFlag f b).returnFromInterrupt = s.returnFromInterrupt := by
  simp only [State.returnFromInterrupt_eq]
  rfl

/-- Settles O50: a push of P writes its own bits 4 and 5, a pull overwrites them, CLD and SED write another
bit, and every other instruction does not touch them (`exec_setFlag_unseen`). -/
theorem bitsFourAndFiveAreUnobservable : Obligations.BitsFourAndFiveAreUnobservable := by
  intro i s b f hf
  by_cases hb : ∃ p, i = .brk p
  · obtain ⟨p, rfl⟩ := hb
    exact ⟨_, rfl, .inr (congrArg (fun t => Host.Outcome.next (State.setHalted true t))
      (serviceSequence_setFlag s hf b true Config.irqVector))⟩
  by_cases hi : i ∈ [Instr.php, .cld, .sed, .plp, .rti]
  · simp only [List.mem_cons, List.not_mem_nil, or_false] at hi
    rcases hi with rfl | rfl | rfl | rfl | rfl
    · exact ⟨_, rfl, .inr (congrArg Host.Outcome.next (push8_pushedStatus_setFlag s hf b true))⟩
    · exact ⟨_, rfl, .inr (congrArg Host.Outcome.next (setFlag_d_comm s hf b false))⟩
    · exact ⟨_, rfl, .inr (congrArg Host.Outcome.next (setFlag_d_comm s hf b true))⟩
    · exact ⟨_, rfl, .inl (congrArg Host.Outcome.next (pulled_setFlag s f b))⟩
    · exact ⟨_, rfl, .inl (congrArg Host.Outcome.next (returnFromInterrupt_setFlag s f b))⟩
  · obtain ⟨t, ht, hs⟩ := exec_setFlag_unseen i s (List.mem_cons_of_mem _ hf) b hi fun p hp => hb ⟨p, hp⟩
    exact ⟨t, ht, .inr hs⟩

/-- Settles O51: outside the instructions named, D is not seen. -/
theorem nothingButPushedStatusDependsOnD : Obligations.NothingButPushedStatusDependsOnD :=
  fun i s d hi hb => exec_setFlag_unseen i s List.mem_cons_self d hi hb

/-! ### Writing P -/

/-- Settles O12: the update sets the two flags one after the other. -/
theorem updateZNWritesZAndNOnly : Obligations.UpdateZNWritesZAndNOnly := by
  intro s v
  refine ⟨⟨?_, ?_⟩, fun f hf => ?_, rfl⟩
  · simp [beq_eq_decide]
  · simp [BitVec.msb_eq_decide]
  · simp only [List.mem_cons, List.not_mem_nil, or_false, not_or] at hf
    rw [State.flag_updateZN, if_neg hf.2, if_neg hf.1]

/-- Settles O13: `setBit` writes one bit. -/
theorem setFlagLeavesTheOtherSeven : Obligations.SetFlagLeavesTheOtherSeven := by
  intro s f b
  refine ⟨?_, fun g hg => ?_, rfl⟩
  · rw [State.flag_setFlag, if_pos rfl]
  · rw [State.flag_setFlag, if_neg (mt List.mem_singleton.mpr hg)]

/-! ### Reset -/

/-- Settles O45: memory lists nothing and the buffer is empty. -/
theorem resetMeetsTheInvariant : Obligations.ResetMeetsTheInvariant :=
  ⟨⟨List.Pairwise.nil, by simp [State.reset]⟩, Nat.le_refl 0⟩

end Sys2Proof.Machine
end

section
/-! The family 20_memory.md. Memory as data, the bus, the stack and the host's copies: each operation's
effect is an equation of Laws/Ops.lean, and the obligations read bytes back through it. -/

namespace Sys2Proof.Machine

/-! ### Canonical memories -/

namespace Memory

/-- A memory with rising addresses reads every byte it lists. -/
theorem read_of_mem {m : Memory} (h : m.Pairwise fun c d => c.1 < d.1) {c : Host.Cell} (hc : c ∈ m) :
    m.read c.1 = c.2 := by
  induction m with
  | nil => cases hc
  | cons d m ih =>
    obtain ⟨hd, hm⟩ := List.pairwise_cons.mp h
    rcases List.mem_cons.mp hc with rfl | hc
    · simp [read]
    · have hne : d.1 ≠ c.1 := Nat.ne_of_lt (hd c hc)
      simp [read, hne, ih hm hc]

/-- Every byte that reads as other than an unlisted one is listed. -/
theorem mem_of_read_ne_blank {m : Memory} {a : Nat} (h : m.read a ≠ Config.blankByte) :
    (a, m.read a) ∈ m := by
  induction m with
  | nil => exact absurd rfl h
  | cons d m ih =>
    obtain ⟨k, w⟩ := d
    by_cases hk : k = a
    · simp [read, hk]
    · simp only [read, if_neg hk] at h ⊢
      exact List.mem_cons_of_mem _ (ih h)

/-- A canonical memory lists only what a memory that reads alike lists. -/
theorem subset_of_read_eq {m n : Memory} (hm : m.wf)
    (h : ∀ a : Addr, m.read a.toNat = n.read a.toNat) : m ⊆ n := by
  intro c hc
  obtain ⟨hsize, hval⟩ := hm.2 c hc
  have hread : n.read c.1 = c.2 := by
    have ha : m.read c.1 = n.read c.1 := h (BitVec.ofNatLT c.1 hsize)
    rw [← ha, read_of_mem hm.1 hc]
  have hmem := mem_of_read_ne_blank (hread ▸ hval)
  rwa [hread] at hmem

end Memory

/-- Settles O5: the two list the same bytes, and rising addresses leave one order to list them in. -/
theorem memoriesThatReadAlikeAreEqual : Obligations.MemoriesThatReadAlikeAreEqual := by
  intro m n hm hn h
  have hmn : m ⊆ n := Memory.subset_of_read_eq hm h
  have hnm : n ⊆ m := Memory.subset_of_read_eq hn fun a => (h a).symm
  have nodup : ∀ {l : Memory}, l.wf → l.Nodup := fun hl => hl.1.imp fun hlt he => by simp [he] at hlt
  have hperm : m.Perm n := (List.perm_ext_iff_of_nodup (nodup hm) (nodup hn)).mpr fun c => ⟨@hmn c, @hnm c⟩
  exact hperm.eq_of_pairwise (fun _ _ _ _ hlt hgt => absurd hlt (Nat.lt_asymm hgt)) hm.1 hn.1

/-! ### The bus -/

/-- Settles O6: `read8_fst` for the value, `read8_snd` for the state. -/
theorem busReadTakesRamOrTheNextKey : Obligations.BusReadTakesRamOrTheNextKey :=
  fun s a => Prod.ext (s.read8_fst a) (s.read8_snd a)

namespace State

variable (s : State)

/-- A bus write reads back as R58 and R59 say, with R60's event. -/
theorem storesByte_write8 (a : Addr) (v : Byte) : StoresByte a v s (s.write8 a v) := by
  rw [write8_eq]
  refine ⟨fun b hb => ?_, fun hwf => ?_, ?_⟩
  · show (s.memAfterWrite a v).read b.toNat = s.peek b
    unfold memAfterWrite
    split
    · rfl
    · exact s.peek_poke_other v hb
  · show (s.memAfterWrite a v).read a.toNat =
      if a = Config.ioKbd ∧ Config.kbdWriteStores = false then s.peek a else v
    by_cases hkbd : a = Config.ioKbd ∧ Config.kbdWriteStores = false
    · rw [memAfterWrite, if_pos hkbd, if_pos hkbd]
      rfl
    · rw [memAfterWrite, if_neg hkbd, if_neg hkbd]
      exact s.peek_poke_same a v hwf
  · show s.eventsAfterWrite a v = s.events ++ if a = Config.ioTty then _ else _
    unfold eventsAfterWrite
    split
    · rfl
    · rw [List.append_nil]

end State

/-- Settles O7: a write touches memory and the events only (`write8_eq`), and those as `storesByte_write8`
says. -/
theorem busWriteStoresAndEmits : Obligations.BusWriteStoresAndEmits := by
  intro s a v
  refine ⟨s.storesByte_write8 a v, ?_⟩
  rw [State.write8_eq]
  exact ⟨fun r _ => by cases r <;> rfl, rfl, rfl, rfl, rfl, ⟨rfl, rfl, rfl, rfl, rfl, rfl, rfl⟩, rfl, rfl⟩

/-! ### The stack -/

namespace PushesBytes

theorem refl (s : State) : PushesBytes [] s s :=
  ⟨(BitVec.sub_zero s.sp).symm, fun _ _ => rfl, fun _ k hk => absurd hk k.not_lt_zero, rfl, rfl, rfl, rfl⟩

/-- One more push after fewer than 256: it lands below the bytes pushed so far and hits none of them. -/
theorem push8 {vs : List Byte} {s t : State} (h : PushesBytes vs s t) (hwf : s.mem.wf → t.mem.wf)
    (hlen : vs.length < 256) (v : Byte) : PushesBytes (vs ++ [v]) s (t.push8 v) := by
  obtain ⟨hsp, hother, hread, hevents, hcur, hcross, htaken⟩ := h
  rw [State.push8_eq, hsp]
  refine ⟨?_, fun a ha => ?_, fun hs k hk => ?_, hevents, hcur, hcross, htaken⟩
  · rw [State.setSp_sp, List.length_append, BitVec.sub_sub, List.length_singleton, BitVec.ofNat_add]
  · rw [List.length_append, List.length_singleton] at ha
    rw [State.peek_setSp, State.peek_poke_other _ _ (ha _ (Nat.lt_succ_self _))]
    exact hother a fun k hk => ha k (Nat.lt_succ_of_lt hk)
  · rw [State.peek_setSp]
    rw [List.length_append, List.length_singleton] at hk
    rcases Nat.lt_succ_iff_lt_or_eq.mp hk with hk | rfl
    · have hne : stackAddr (s.sp - BitVec.ofNat 8 k) ≠ stackAddr (s.sp - BitVec.ofNat 8 vs.length) := by
        rw [Ne, stackAddr_inj]
        bv_omega
      rw [State.peek_poke_other _ _ hne, hread hs k hk, List.getD_append _ _ _ _ hk]
    · rw [State.peek_poke_same _ _ _ (hwf hs)]
      simp

end PushesBytes

/-- Settles O8: one push, and two in a row, of the general rule `PushesBytes.push8`. -/
theorem pushesStayInTheStackPage : Obligations.PushesStayInTheStackPage := by
  intro s v w
  have one (v : Byte) : PushesBytes [v] s (s.push8 v) := (PushesBytes.refl s).push8 id (by decide) v
  exact ⟨one v, (one (hiByte w)).push8 (s.keeps_push8 _).mem_wf (show 1 < 256 by decide)
    (loByte w),
    stackAddr_toNat⟩

/-- Settles O9: SP comes back to where the byte was stored; the low byte of a word, one lower, leaves the
high byte alone. -/
theorem popGivesBackWhatWasPushed : Obligations.PopGivesBackWhatWasPushed := by
  intro s v w hwf
  constructor
  · rw [State.pop8_eq, State.push8_eq]
    simp [State.peek_poke_same _ _ _ hwf]
  · have hne : stackAddr s.sp ≠ stackAddr (s.sp - 1#8) := by
      rw [Ne, stackAddr_inj]
      bv_omega
    have hlo := State.peek_poke_same _ (stackAddr (s.sp - 1#8)) (loByte w)
      (s.wf_poke (stackAddr s.sp) (hiByte w) hwf)
    rw [State.pop16_eq, State.push16_eq]
    simp [hlo, State.peek_poke_other _ _ hne, State.peek_poke_same _ _ _ hwf, joinBytes_lo_hi]

/-! ### The host's copies -/

namespace State

variable (s : State)

/-- A poke read back at any address (R61). -/
theorem peek_poke {s : State} (h : s.mem.wf) (a b : Addr) (v : Byte) :
    (s.poke a v).peek b = if b = a then v else s.peek b := by
  split
  · next hb => rw [hb, s.peek_poke_same a v h]
  · next hb => exact s.peek_poke_other v hb

/-- The copy of `load_rom` touches memory only. -/
theorem copyBytes_eq (addr : Nat) (bytes : List Byte) :
    s.copyBytes addr bytes = s.setMem (s.copyBytes addr bytes).mem := by
  induction bytes generalizing s addr with
  | nil => rfl
  | cons v rest ih => exact ih (s.setMem (s.mem.write addr v)) (addr + 1)

/-- It leaves the bytes outside its range alone. -/
theorem read_copyBytes_other {addr b : Nat} {bytes : List Byte}
    (h : b < addr ∨ addr + bytes.length ≤ b) : (s.copyBytes addr bytes).mem.read b = s.mem.read b := by
  induction bytes generalizing s addr with
  | nil => rfl
  | cons v rest ih =>
    rw [List.length_cons] at h
    rw [copyBytes, ih _ (by omega)]
    exact Memory.read_write_other _ _ (by omega)

/-- Inside its range the bytes copied are read back in order, the range lying in the address space. -/
theorem read_copyBytes {s : State} {addr k : Nat} {bytes : List Byte} (hwf : s.mem.wf)
    (hsize : addr + bytes.length ≤ Config.memorySize) (hk : k < bytes.length) :
    (s.copyBytes addr bytes).mem.read (addr + k) = bytes.getD k 0#8 := by
  induction bytes generalizing s addr k with
  | nil => exact absurd hk k.not_lt_zero
  | cons v rest ih =>
    rw [List.length_cons] at hsize hk
    rw [copyBytes]
    cases k with
    | zero =>
      rw [read_copyBytes_other _ (by omega)]
      exact Memory.read_write_same _ _ _ hwf
    | succ k =>
      have hw := Memory.wf_write s.mem v hwf (a := addr) (by omega)
      rw [show addr + (k + 1) = addr + 1 + k by omega, List.getD_cons_succ]
      exact ih hw (by omega) (by omega)

end State

/-- Settles O56: the checks in R62's order; a load that passes them is `copyBytes`, read back by
`read_copyBytes` and `read_copyBytes_other`. -/
theorem loadRomCopiesOnce : Obligations.LoadRomCopiesOnce := by
  intro s bytes base hwf
  refine ⟨fun hrom => if_pos hrom, fun hrom hbad => ?_, fun hrom hpos hsize => ?_⟩
  · rw [State.loadRom, if_neg (by simp [hrom])]
    exact if_pos hbad
  · have hdone : s.loadRom bytes base = .done ((s.copyBytes base.toNat bytes).setRomLoaded true) := by
      have hok : ¬(bytes.length = 0 ∨ base.toNat + bytes.length > Config.memorySize) :=
        not_or.mpr ⟨Nat.ne_of_gt hpos, Nat.not_lt.mpr hsize⟩
      rw [State.loadRom, if_neg (by simp [hrom]), if_neg hok]
    refine ⟨_, hdone, rfl, fun k hk => ?_, fun a ha => s.read_copyBytes_other ha, ?_⟩
    · have haddr : (base + BitVec.ofNat 16 k).toNat = base.toNat + k := by
        rw [BitVec.toNat_add, BitVec.toNat_ofNat]
        omega
      show (s.copyBytes base.toNat bytes).mem.read (base + BitVec.ofNat 16 k).toNat = _
      rw [haddr]
      exact State.read_copyBytes hwf hsize hk
    · rw [State.copyBytes_eq]
      exact ⟨rfl, rfl, rfl⟩

/-- Settles O59: a poke writes memory as data, so `peek_poke` holds at 0xF000 as elsewhere. -/
theorem pokeIsReadBackAndBypassesTheBus : Obligations.PokeIsReadBackAndBypassesTheBus :=
  fun s a b v hwf => ⟨State.peek_poke hwf a b v, rfl, s.peek_poke_same 0xF000#16 v hwf⟩

end Sys2Proof.Machine
end

section
/-! The family 30_encoding.md. Decoding a byte string is said once as an equivalence
(`decode_cons_eq_ok_iff`); the encoding of the decoded instruction is read off the row it was found in
(`encode_of_decodeOp`), and the row of an encoded instruction off `EncodingForm`. -/

namespace Sys2Proof.Laws.EncodingForm

/-- Every constructor of `Instr` has its lemma. -/
theorem statement_holds (i : Instr) : Statement i :=
  Instr.casesOn (motive := Statement) i
    ldaIndx ldaZp ldaImm ldaAbs ldaIndy ldaZpx ldaAbsy ldaAbsx ldxImm ldxZp ldxAbs ldxZpy ldxAbsy
    ldyImm ldyZp ldyAbs ldyZpx ldyAbsx staIndx staZp staAbs staIndy staZpx staAbsy staAbsx stxZp
    stxAbs stxZpy styZp styAbs styZpx adcIndx adcZp adcImm adcAbs adcIndy adcZpx adcAbsy adcAbsx
    sbcIndx sbcZp sbcImm sbcAbs sbcIndy sbcZpx sbcAbsy sbcAbsx cmpIndx cmpZp cmpImm cmpAbs cmpIndy
    cmpZpx cmpAbsy cmpAbsx cpxImm cpxZp cpxAbs cpyImm cpyZp cpyAbs andIndx andZp andImm andAbs
    andIndy andZpx andAbsy andAbsx oraIndx oraZp oraImm oraAbs oraIndy oraZpx oraAbsy oraAbsx
    eorIndx eorZp eorImm eorAbs eorIndy eorZpx eorAbsy eorAbsx bitZp bitAbs aslZp aslAcc aslAbs
    aslZpx aslAbsx lsrZp lsrAcc lsrAbs lsrZpx lsrAbsx rolZp rolAcc rolAbs rolZpx rolAbsx rorZp
    rorAcc rorAbs rorZpx rorAbsx incZp incAbs incZpx incAbsx decZp decAbs decZpx decAbsx inx iny dex
    dey tax tay txa tya tsx txs clc sec cli sei clv cld sed bcc bcs beq bne bmi bpl bvc bvs jmpAbs
    jmpInd jsr rts pha pla php plp brk rti nop

end Sys2Proof.Laws.EncodingForm

namespace Sys2Proof.Machine

/-! ### Byte pairs -/

@[simp] theorem loByte_joinBytes (lo hi : Byte) : loByte (joinBytes lo hi) = lo := by
  apply BitVec.eq_of_toNat_eq
  rw [loByte_toNat, joinBytes_toNat]
  omega

@[simp] theorem hiByte_joinBytes (lo hi : Byte) : hiByte (joinBytes lo hi) = hi := by
  apply BitVec.eq_of_toNat_eq
  rw [hiByte_toNat, joinBytes_toNat]
  omega

/-! ### Rows and encodings -/

/-- An opcode that decodes is not one of R89's. -/
theorem not_mem_of_decodeOp {op b1 b2 : Byte} {i : Instr} (h : decodeOp op b1 b2 = some i) :
    op ∉ notImplementedOpcodes := by
  rw [← decodeOp_eq_none_iff op b1 b2, h]
  exact Option.some_ne_none i

/-- The operand bytes of a row that was looked up at the first bytes of `rest` are taken from `rest`. -/
theorem rowOperands_joinBytes (n : Nat) (rest : List Byte) (hn : n ≤ 2) (hlen : n ≤ rest.length) :
    rowOperands n (rest.getD 0 0#8) (joinBytes (rest.getD 0 0#8) (rest.getD 1 0#8)) = rest.take n := by
  match n, rest with
  | 0, _ => rfl
  | 1, _ :: _ => rfl
  | 2, _ :: _ :: _ => simp [rowOperands]

/-- What an opcode and the bytes after it decode to is encoded as the opcode and as many of them as the
instruction takes. -/
theorem encode_of_decodeOp {op : Byte} {rest : List Byte} {i : Instr}
    (h : decodeOp op (rest.getD 0 0#8) (rest.getD 1 0#8) = some i) (hlen : operandBytes i ≤ rest.length) :
    encode i = op :: rest.take (operandBytes i) := by
  have hrow := encode_of_row ((decodeOp_eq_some_iff _ _ _ _).mp h)
  rwa [rowOperands_joinBytes _ rest (operandBytes_le i) hlen] at hrow

/-- The opcode of an encoded instruction decodes to it, whatever bytes follow the encoding. -/
theorem decodeOp_encode (i : Instr) (rest : List Byte) :
    decodeOp (opcodeOf i) (((encode i).tail ++ rest).getD 0 0#8) (((encode i).tail ++ rest).getD 1 0#8) =
      some i := by
  obtain ⟨-, -, -, hrow⟩ := Laws.EncodingForm.statement_holds i
  exact (decodeOp_eq_some_iff _ _ _ _).mpr (hrow rest)

/-- Bytes with an opcode are well formed when it is implemented and as many bytes follow as its column of
R86 says. -/
theorem wellFormedCode_cons (op : Byte) (operands : List Byte) :
    wellFormedCode (op :: operands) = true ↔
      op ∉ notImplementedOpcodes ∧ operands.length = columnOperandBytes op := by
  simp [wellFormedCode]

/-- R86's columns give the operand bytes of every implemented opcode (R81, R82). -/
theorem columnOperandBytes_of_decodeOp {op b1 b2 : Byte} {i : Instr} (h : decodeOp op b1 b2 = some i) :
    columnOperandBytes op = operandBytes i := by
  have hop : opcodeOf i = op := by
    rw [opcodeOf, encode_of_row ((decodeOp_eq_some_iff _ _ _ _).mp h)]
    rfl
  obtain ⟨hwf, henc, hlen, -⟩ := Laws.EncodingForm.statement_holds i
  rw [henc, hop, wellFormedCode_cons, hlen] at hwf
  exact hwf.2.symm

/-! ### Decoding bytes -/

/-- Bytes decode exactly when the opcode does and the operand bytes are there; what follows them is left
over. -/
theorem decode_cons_eq_ok_iff (op : Byte) (operands rest : List Byte) (i : Instr) :
    decode (op :: operands) = .ok (i, rest) ↔
      decodeOp op (operands.getD 0 0#8) (operands.getD 1 0#8) = some i ∧
      operandBytes i ≤ operands.length ∧ rest = operands.drop (operandBytes i) := by
  rcases decode_cons op operands with ⟨hop, hdec⟩ | ⟨j, hj, hdec⟩
  · rw [hdec, (decodeOp_eq_none_iff _ _ _).mpr hop]
    simp
  · rw [hdec, hj, Option.some.injEq]
    constructor
    · intro h
      split at h
      · cases h
      · next hle =>
        cases h
        exact ⟨rfl, Nat.not_lt.mp hle, rfl⟩
    · rintro ⟨rfl, hle, rfl⟩
      exact if_neg (Nat.not_lt.mpr hle)

/-- An encoding is decoded and what follows it is left over. -/
theorem decode_encode_append (i : Instr) (rest : List Byte) :
    decode (encode i ++ rest) = .ok (i, rest) := by
  obtain ⟨-, henc, hlen, -⟩ := Laws.EncodingForm.statement_holds i
  rw [henc, List.cons_append, decode_cons_eq_ok_iff, ← hlen]
  exact ⟨decodeOp_encode i rest, by simp, by simp⟩

/-- The bytes that were decoded are the encoding and what is left over. -/
theorem eq_encode_append_of_decode {bytes rest : List Byte} {i : Instr}
    (h : decode bytes = .ok (i, rest)) : bytes = encode i ++ rest := by
  cases bytes with
  | nil => cases h
  | cons op operands =>
    obtain ⟨hop, hlen, rfl⟩ := (decode_cons_eq_ok_iff _ _ _ _).mp h
    rw [encode_of_decodeOp hop hlen, List.cons_append, List.take_append_drop]

/-- Settles O2: one lemma for each direction. -/
theorem decodeAndEncodeAgree : Obligations.DecodeAndEncodeAgree :=
  fun _ i rest => ⟨eq_encode_append_of_decode, fun h => h ▸ decode_encode_append i rest⟩

/-- Settles O3: by the two cases of `decode_cons`, the opcode being listed or decoding to a row. -/
theorem exactlyTheListedOpcodesAreNotImplemented :
    Obligations.ExactlyTheListedOpcodesAreNotImplemented := by
  refine ⟨fun op rest => ?_, by decide, rfl⟩
  rcases decode_cons op rest with ⟨hop, hdec⟩ | ⟨i, hi, hdec⟩
  · exact iff_of_true hdec hop
  · refine iff_of_false (fun h => ?_) (not_mem_of_decodeOp hi)
    rw [hdec] at h
    split at h <;> cases h

/-- Settles O4: R86's column of an opcode and its row ask for the same number of operand bytes, and R89's
list holds the opcodes without a row. -/
theorem wellFormedCodeIsWhatDecodes : Obligations.WellFormedCodeIsWhatDecodes := by
  intro bytes
  cases bytes with
  | nil => exact iff_of_false Bool.false_ne_true fun ⟨_, h⟩ => by cases h
  | cons op operands =>
    simp only [wellFormedCode_cons, decode_cons_eq_ok_iff]
    constructor
    · rintro ⟨hop, hlen⟩
      rw [← decodeOp_eq_none_iff op (operands.getD 0 0#8) (operands.getD 1 0#8)] at hop
      obtain ⟨i, hi⟩ := Option.ne_none_iff_exists'.mp hop
      rw [columnOperandBytes_of_decodeOp hi] at hlen
      exact ⟨i, hi, hlen.ge, (List.drop_of_length_le hlen.le).symm⟩
    · rintro ⟨i, hi, hle, hdrop⟩
      have hge : operands.length ≤ operandBytes i := List.drop_eq_nil_iff.mp hdrop.symm
      rw [columnOperandBytes_of_decodeOp hi]
      exact ⟨not_mem_of_decodeOp hi, Nat.le_antisymm hge hle⟩

/-- Settles O1: each word is the encoding of its instruction, so O2 decodes it. -/
theorem encodedWordsOfEveryFamilyDecode : Obligations.EncodedWordsOfEveryFamilyDecode := by
  unfold Obligations.EncodedWordsOfEveryFamilyDecode
  and_intros <;> exact (decodeAndEncodeAgree _ _ _).mpr rfl

end Sys2Proof.Machine
end

section
/-! The family 40_fetch_decode_addressing.md. The addressing unit by the spec's numbers; where the fetch
leaves PC and the keyboard cursor (`fetchOperands_snd`); what the head's service leaves
(`serviceInterrupts_of_due`); and the step, whose two outcomes are those of its fetch. -/

namespace Sys2Proof.Machine

/-! ### Effective addresses -/

/-- A zero-page sum wraps inside the zero page (R105, R106, R110). -/
theorem zext_add_toNat (z index : Byte) : (zext (z + index)).toNat = (z.toNat + index.toNat) % 256 := by
  rw [zext_toNat, BitVec.toNat_add]

/-- A zero-page address as the number it is. -/
theorem zext_eq_ofNat (z : Byte) : zext z = BitVec.ofNat 16 z.toNat :=
  (BitVec.ofNat_toNat 16 z).symm

/-- The number of an indexed address (R108, R109, R111). -/
theorem indexedBy_addr_toNat (base : Addr) (index : Byte) :
    (indexedBy base index).addr.toNat = (base.toNat + index.toNat) % 65536 :=
  add_zext_toNat base index

/-- Its indicator compares the pages of base and sum (R11). -/
theorem indexedBy_cross (base : Addr) (index : Byte) :
    (indexedBy base index).cross =
      decide (base.toNat / 256 ≠ (base.toNat + index.toNat) % 65536 / 256) := by
  rw [← add_zext_toNat]
  exact crossesPage_eq _ _

/-- The number of the word a zero-page pointer names, its second byte wrapping (R110, R111). -/
theorem State.readPointer_toNat (s : State) (z : Byte) :
    (s.readPointer z).1.toNat = (s.peek (BitVec.ofNat 16 z.toNat)).toNat +
      256 * (s.peek (BitVec.ofNat 16 ((z.toNat + 1) % 256))).toNat := by
  rw [readPointer_eq, joinBytes_toNat, zext_eq_ofNat, zext_eq_ofNat, BitVec.toNat_add]
  rfl

/-- Settles O10: each mode's address is a zero-page number, a word, an indexed address or a pointer's word. -/
theorem effectiveAddressesFollowTheFormulas : Obligations.EffectiveAddressesFollowTheFormulas := by
  intro s z w
  refine ⟨?_, ?_, ?_, rfl, ?_, ?_, ?_, ?_, fun m => s.effAddr_snd m⟩
  · exact congrArg (·, false) (zext_toNat z)
  · exact congrArg (·, false) (zext_add_toNat z s.x)
  · exact congrArg (·, false) (zext_add_toNat z s.y)
  · exact Prod.ext (indexedBy_addr_toNat w s.x) (indexedBy_cross w s.x)
  · exact Prod.ext (indexedBy_addr_toNat w s.y) (indexedBy_cross w s.y)
  · have h := s.readPointer_toNat (z + s.x)
    rw [BitVec.toNat_add] at h
    exact congrArg (·, false) h
  · have h : s.effAddr (.indy z) = (indexedBy (s.readPointer z).1 s.y, s) := by
      rw [State.effAddr, State.readPointer_eq]
    simp only [h, indexedBy_addr_toNat, indexedBy_cross, State.readPointer_toNat]

/-- Settles O11: the signed sum is `add_sext_toNat`, the indicator compares the two pages. -/
theorem branchTargetIsPcPlusSignedOffset : Obligations.BranchTargetIsPcPlusSignedOffset :=
  ⟨fun pc r => ⟨add_sext_toNat pc r, crossesPage_eq _ _⟩, by decide⟩

/-! ### The fetch -/

namespace State

variable (s : State)

/-- The state after the fetch of `n` bytes at PC: past them, a key consumed where one of them lies at
0xF000 (R79, R93). -/
def afterFetch (n : Nat) (s : State) : State :=
  (s.setKbdCur (cursorAfterFetch s n)).setPc (s.pc + BitVec.ofNat 16 n)

/-- PC meets 0xF000 at most once in fewer than 65536 bytes. -/
theorem not_kbd_before {n : Nat} (hn : n < 65536) (h : s.pc + BitVec.ofNat 16 n = 0xF000#16) :
    ¬∃ k < n, s.pc + BitVec.ofNat 16 k = 0xF000#16 := by
  rintro ⟨k, hk, hkbd⟩
  have hnum := congrArg BitVec.toNat ((BitVec.add_right_inj s.pc).mp (hkbd.trans h.symm))
  rw [BitVec.toNat_ofNat, BitVec.toNat_ofNat] at hnum
  omega

/-- The read of the byte after `n` moves the cursor as the fetch of `n + 1` bytes does (R57, R79). -/
theorem curAfterRead_afterFetch {n : Nat} (hn : n < 65536) :
    (s.afterFetch n).curAfterRead (s.afterFetch n).pc = cursorAfterFetch s (n + 1) := by
  show (if s.pc + BitVec.ofNat 16 n = 0xF000#16 ∧ cursorAfterFetch s n < s.kbdBuf.length then
    cursorAfterFetch s n + 1 else cursorAfterFetch s n) = _
  by_cases h : s.pc + BitVec.ofNat 16 n = 0xF000#16
  · simp only [cursorAfterFetch, Nat.exists_lt_succ_right, h, s.not_kbd_before hn h, false_and, true_and,
      or_true, if_false]
  · simp only [cursorAfterFetch, Nat.exists_lt_succ_right, h, false_and, or_false, if_false]

/-- One byte more is fetched at the PC that `n` bytes leave (R93). -/
theorem fetch8_afterFetch {n : Nat} (hn : n < 65536) :
    (s.afterFetch n).fetch8.2 = s.afterFetch (n + 1) := by
  rw [fetch8_eq, curAfterRead_afterFetch s hn, afterFetch, afterFetch, BitVec.ofNat_add,
    ← BitVec.add_assoc]
  rfl

theorem afterFetch_zero : s.afterFetch 0 = s := by
  have hcur : cursorAfterFetch s 0 = s.kbdCur := if_neg fun ⟨⟨k, hk, _⟩, _⟩ => absurd hk k.not_lt_zero
  rw [afterFetch, hcur, BitVec.add_zero]
  rfl

theorem fetch8_snd : s.fetch8.2 = s.afterFetch 1 := by
  have h := s.fetch8_afterFetch (n := 0) (by decide)
  rwa [afterFetch_zero] at h

/-- The operand bytes are fetched after the opcode (R93, R94). -/
theorem fetchOperands_snd {n : Nat} (hn : n ≤ 2) :
    (s.fetch8.2.fetchOperands n).2 = s.afterFetch (n + 1) := by
  have h1 := s.fetch8_snd
  have h2 := s.fetch8_afterFetch (n := 1) (by decide)
  have h3 := s.fetch8_afterFetch (n := 2) (by decide)
  rw [h1]
  match n, hn with
  | 0, _ => rfl
  | 1, _ => exact h2
  | 2, _ => exact (congrArg (fun u => (State.fetch8 u).2) h2).trans h3

/-- What the fetch finds leaves PC past its encoding (R83, R93). -/
theorem fetchInstr_state {s u : State} {i : Instr} (h : s.fetchInstr = .instr i u) :
    u = s.afterFetch (encode i).length := by
  rcases s.fetchInstr_cases with ⟨-, hf⟩ | ⟨n, j, -, rfl, -, hf⟩
  · cases h.symm.trans hf
  · cases h.symm.trans hf
    obtain ⟨-, henc, hlen, -⟩ := Laws.EncodingForm.statement_holds i
    rw [s.fetchOperands_snd (operandBytes_le i), henc, List.length_cons, hlen]

end State

/-! ### The head of a step -/

/-- The words at the interrupt vectors lie above the stack page and the I/O registers (R9). -/
theorem vector_word_ge {vector a : Addr} (hv : vector ∈ [Config.nmiVector, Config.irqVector])
    (ha : a = vector ∨ a = vector + 1#16) : 0xFFFA ≤ a.toNat := by
  simp only [List.mem_cons, List.not_mem_nil, or_false] at hv
  rcases hv with rfl | rfl <;> rcases ha with rfl | rfl <;> decide

theorem ne_ioKbd_of_ge {a : Addr} (h : 0xFFFA ≤ a.toNat) : a ≠ Config.ioKbd := by
  rintro rfl
  exact absurd h (by decide)

theorem ne_stackAddr_of_ge {a : Addr} (h : 0xFFFA ≤ a.toNat) (sp : Byte) : a ≠ stackAddr sp := by
  rintro rfl
  rw [stackAddr_toNat] at h
  have := sp.isLt
  omega

namespace State

section

variable (s : State) {vector : Addr} (hv : vector ∈ [Config.nmiVector, Config.irqVector]) (brk : Bool)
include hv

/-- `serviceSequence_eq` at the interrupt vectors. -/
theorem serviceSequence_vector_eq :
    s.serviceSequence vector brk =
      (((s.memAfterService brk).setSp (s.sp - 1#8 - 1#8 - 1#8)).setFlag .i true).setPc
        (joinBytes ((s.memAfterService brk).peek vector) ((s.memAfterService brk).peek (vector + 1#16))) :=
  s.serviceSequence_eq brk (ne_ioKbd_of_ge (vector_word_ge hv (.inl rfl)))
    (ne_ioKbd_of_ge (vector_word_ge hv (.inr rfl)))

/-- A service pushes PC and the status (R183). -/
theorem serviceSequence_pushes :
    PushesBytes [hiByte s.pc, loByte s.pc, pushedStatus s.p brk] s (s.serviceSequence vector brk) := by
  obtain ⟨-, h2, -⟩ := pushesStayInTheStackPage s 0#8 s.pc
  have h3 := h2.push8 (s.keeps_push16 s.pc).mem_wf (show 2 < 256 by decide) (pushedStatus s.p brk)
  rw [push16_eq, push8_eq] at h3
  rw [s.serviceSequence_vector_eq hv]
  exact h3

/-- It leaves PC at the word of the vector, which no push reaches (R183). -/
theorem serviceSequence_pc : (s.serviceSequence vector brk).pc.toNat = wordAt s vector := by
  obtain ⟨-, hother, -⟩ := s.serviceSequence_pushes hv brk
  have hpeek {a : Addr} (ha : a = vector ∨ a = vector + 1#16) :
      (s.memAfterService brk).peek a = s.peek a := by
    have h := hother a fun k _ => ne_stackAddr_of_ge (vector_word_ge hv ha) _
    rwa [s.serviceSequence_vector_eq hv] at h
  rw [s.serviceSequence_vector_eq hv, setPc_pc, joinBytes_toNat, hpeek (.inl rfl), hpeek (.inr rfl),
    wordAt]

/-- It sets I and leaves the other flags (R183). -/
theorem serviceSequence_flag (f : Flag) :
    (s.serviceSequence vector brk).flag f = if f = .i then true else s.flag f := by
  simp only [s.serviceSequence_vector_eq hv, memAfterService, flag_setPc, flag_setFlag,
    flag_setSp, flag_poke]

theorem serviceSequence_getReg (r : Reg) : (s.serviceSequence vector brk).getReg r = s.getReg r := by
  simp only [s.serviceSequence_vector_eq hv, memAfterService, getReg_setPc,
    getReg_setFlag, getReg_setSp, getReg_poke]

end

variable (s : State)

/-- The vector of the interrupt a due step head services: NMI's before IRQ's (R182). -/
def dueVector (s : State) : Addr := if s.nmiPending then Config.nmiVector else Config.irqVector

theorem dueVector_mem : s.dueVector ∈ [Config.nmiVector, Config.irqVector] := by
  unfold dueVector
  split <;> simp

theorem serviceInterrupts_of_not_due (h : s.interruptDue = false) : s.serviceInterrupts = s := by
  obtain ⟨hnmi, hirq⟩ := Bool.or_eq_false_iff.mp h
  rw [serviceInterrupts, hnmi, hirq]
  rfl

theorem setNmiPending_of_eq {b : Bool} (h : s.nmiPending = b) : s.setNmiPending b = s := h ▸ rfl

theorem setIrqPending_of_eq {b : Bool} (h : s.irqPending = b) : s.setIrqPending b = s := h ▸ rfl

/-- A due interrupt is one service sequence, and the latch of the one serviced is cleared (R182). -/
theorem serviceInterrupts_of_due (h : s.interruptDue = true) :
    s.serviceInterrupts = ((s.serviceSequence s.dueVector false).setNmiPending false).setIrqPending
      (s.irqPending && s.nmiPending) := by
  have k := s.keeps_serviceSequence s.dueVector false
  rcases s.serviceInterrupts_cases with ⟨hnmi, hs⟩ | ⟨hnmi, -, -, hs⟩ | ⟨hnot, -⟩
  · rw [dueVector, if_pos hnmi] at k ⊢
    rw [hs, hnmi, Bool.and_true, setIrqPending_of_eq _ ((setNmiPending_irqPending _ _).trans k.irqPending)]
  · rw [hs, hnmi, Bool.and_false, setNmiPending_of_eq _ (k.nmiPending.trans hnmi), dueVector, hnmi]
    rfl
  · exact absurd (h.symm.trans hnot) (by decide)

end State

/-- Settles O44: a due interrupt is one service sequence (`serviceInterrupts_of_due`) on the cleared state,
whose pushes, PC, flags and registers are said above. -/
theorem stepHeadServicesAtMostOneInterrupt : Obligations.StepHeadServicesAtMostOneInterrupt := by
  intro s cleared
  refine ⟨rfl, cleared.serviceInterrupts_of_not_due, fun h => ?_⟩
  have hv := cleared.dueVector_mem
  have hpushes := cleared.serviceSequence_pushes hv false
  have hpc := cleared.serviceSequence_pc hv false
  have hflag := cleared.serviceSequence_flag hv false
  have hreg := cleared.serviceSequence_getReg hv false
  have k := cleared.keeps_serviceSequence cleared.dueVector false
  rw [show s.beginStep = _ from cleared.serviceInterrupts_of_due h]
  generalize cleared.serviceSequence cleared.dueVector false = t at hpushes hpc hflag hreg k ⊢
  refine ⟨rfl, rfl, hpushes, hpc, hflag .i, fun f hf => ?_, fun r _ => ?_, k.halted, k.cycles⟩
  · exact (hflag f).trans (if_neg fun e => hf (List.mem_singleton.mpr e))
  · rw [State.getReg_setIrqPending, State.getReg_setNmiPending]
    exact hreg r

/-! ### The outcomes of a step -/

/-- A fetched instruction is run and charged (R95). -/
theorem step_of_instr {s u : State} {i : Instr} (h : s.beginStep.fetchInstr = .instr i u) :
    step s = endStep s.interruptDue i (exec i u) := by
  rw [step, h]

/-- A fetched opcode that is not implemented is the fault (R191). -/
theorem step_of_notImplemented {s u : State} {op : Byte}
    (h : s.beginStep.fetchInstr = .notImplemented op u) : step s = .fault (.opcodeNotImplemented op u) := by
  rw [step, h]

/-- Settles O41: the fetch finds the decoded instruction and leaves PC past it (`fetchInstr_state`). -/
theorem stepRunsTheDecodedInstruction : Obligations.StepRunsTheDecodedInstruction := by
  intro s i rest hdec
  obtain ⟨u, hf⟩ := State.fetchInstr_of_decode hdec
  rw [step_of_instr hf, State.fetchInstr_state hf]
  rfl

/-- Settles O43: the fetch tells the two outcomes apart, and every instruction completes (`exec_next`). -/
theorem stepEndsInNextOrNotImplementedOnly : Obligations.StepEndsInNextOrNotImplementedOnly := by
  intro s
  rw [← State.fetch8_fst]
  rcases s.beginStep.fetchInstr_cases with ⟨hop, hf⟩ | ⟨n, i, hn, -, -, hf⟩
  · exact ⟨absurd hop, fun _ => ⟨_, step_of_notImplemented hf⟩⟩
  · have hop : s.beginStep.fetch8.1 ∉ notImplementedOpcodes := fun h => by
      cases hn.symm.trans ((opcodeOperandBytes_eq_none_iff _).mpr h)
    refine ⟨fun _ => ?_, fun h => absurd h hop⟩
    obtain ⟨t, ht⟩ := exec_next i (s.beginStep.fetch8.2.fetchOperands n).2
    exact ⟨t.chargeCycles s.interruptDue i, by rw [step_of_instr hf, ht, endStep]⟩

/-! ### `halted` is not read -/

/-- An instruction other than BRK commutes with a change of `halted`, which it neither reads nor writes. -/
theorem exec_setHalted {i : Instr} (s : State) (b : Bool) (hb : ∀ p, i ≠ .brk p) :
    ∃ t, exec i s = .next t ∧ exec i (s.setHalted b) = .next (t.setHalted b) := by
  by_cases hi : i ∈ [Instr.php, .cld, .sed, .plp, .rti]
  · simp only [List.mem_cons, List.not_mem_nil, or_false] at hi
    rcases hi with rfl | rfl | rfl | rfl | rfl
    · exact ⟨_, rfl, congrArg Host.Outcome.next (s.push8_veil (π := id) (η := fun _ => b) _)⟩
    · exact ⟨_, rfl, rfl⟩
    · exact ⟨_, rfl, rfl⟩
    · refine ⟨_, rfl, congrArg Host.Outcome.next ?_⟩
      simp only [State.pop8_eq]
      rfl
    · refine ⟨_, rfl, congrArg Host.Outcome.next ?_⟩
      simp only [State.returnFromInterrupt_eq]
      rfl
  · exact exec_veil (π := id) (η := fun _ => b) i s unseen_id hi hb

/-- Whatever `halted` was before an instruction, all else after it is the same. -/
theorem exec_eq_but_halted {i : Instr} {s t : State} (b : Bool) (h : exec i s = .next t) :
    ∃ u, exec i (s.setHalted b) = .next u ∧ u.setHalted t.halted = t := by
  by_cases hb : ∃ p, i = .brk p
  · obtain ⟨p, rfl⟩ := hb
    cases h
    have hs := s.serviceSequence_veil (η := fun _ => b) unseen_id Config.irqVector true rfl
    refine ⟨((s.setHalted b).serviceSequence Config.irqVector true).setHalted true, rfl, ?_⟩
    rw [State.veil_id_setHalted] at hs
    rw [hs]
    rfl
  · obtain ⟨v, hv, hu⟩ := exec_setHalted s b fun p hp => hb ⟨p, hp⟩
    cases h.symm.trans hv
    exact ⟨_, hu, rfl⟩

/-- Settles O52: the head, the fetch, the instruction and the charge each go the same way. -/
theorem stepDoesNotReadHalted : Obligations.StepDoesNotReadHalted := by
  intro s t b h
  obtain ⟨i, u, v, hf, hx, rfl⟩ := step_eq_next h
  obtain ⟨w, hw, hwv⟩ := exec_eq_but_halted b hx
  have hf' : (s.setHalted b).beginStep.fetchInstr = .instr i (u.setHalted b) := by
    rw [State.beginStep_setHalted]
    exact State.fetchInstr_setHalted b hf
  refine ⟨w.chargeCycles s.interruptDue i, ?_, congrArg (State.chargeCycles s.interruptDue i) hwv⟩
  rw [step_of_instr hf', hw]
  rfl

end Sys2Proof.Machine
end

section
/-! The family 41_load_store.md. A form's bytes and meaning are read off its table (`decode_of_mem_forms`,
`exec_of_mem_forms`); what an operand read leaves is said once (`onlyReads_readSource`), and a store is the bus
write of O7 after the addressing unit (`store_eq`). -/

namespace Sys2Proof.Machine

/-! ### The tables of forms -/

/-- Where a table writes the encodings of its instructions, its bytes decode. -/
theorem decode_of_mem_forms {α : Type} {l : List (Form α)} {f : Form α} (hf : f ∈ l)
    (hbytes : l.map Form.bytes = l.map fun g => encode g.instr) : decode f.bytes = .ok (f.instr, []) := by
  have henc : f.bytes = encode f.instr := List.map_inj_left.mp hbytes f hf
  rw [henc, decodeAndEncodeAgree, List.append_nil]

/-- Where every row of a table runs the operation `op`, each of its forms does. -/
theorem exec_of_mem_forms {α : Type} {l : List (Form α)} {f : Form α} (hf : f ∈ l) {op : α → State}
    {s : State} (hexec : (l.map fun g => exec g.instr s) = l.map fun g => .next (op g.how)) :
    exec f.instr s = .next (op f.how) :=
  List.map_inj_left.mp hexec f hf

/-! ### The operand read -/

namespace State

variable (s : State)

/-- An operand read gives M as the statements say it (R115). -/
theorem readSource_fst (src : Source) : (s.readSource src).1 = operandValue s src := by
  rw [readSource_eq]
  cases src with
  | imm i => rfl
  | mem m => exact s.read8_fst _

@[simp] theorem getReg_readSource (src : Source) (r : Reg) : (s.readSource src).2.getReg r = s.getReg r := by
  rw [readSource_eq, getReg_setKbdCur, getReg_setPageCross]

@[simp] theorem flag_readSource (src : Source) (f : Flag) : (s.readSource src).2.flag f = s.flag f := by
  rw [readSource_eq, flag_setKbdCur, flag_setPageCross]

/-- An operand read leaves the trace of its bus read and no other (R69, R100). -/
theorem onlyReads_readSource (src : Source) : OnlyReads src s (s.readSource src).2 := by
  rw [readSource_eq]
  refine ⟨rfl, rfl, fun _ => rfl, rfl, ?_, ⟨rfl, rfl, rfl, rfl, rfl, rfl, rfl⟩, ?_, rfl⟩ <;> cases src <;> rfl

end State

namespace OnlyReads

variable {src : Source} {s t : State}

/-- Writing a register is no bus access. -/
theorem setReg (h : OnlyReads src s t) (r : Reg) (v : Byte) : OnlyReads src s (t.setReg r v) := by
  cases r <;> exact h

/-- Nor is writing flags. -/
theorem setP (h : OnlyReads src s t) (p : Byte) : OnlyReads src s (t.setP p) := h

end OnlyReads

/-! ### Loads -/

/-- A load is the operand read, then its register and the flags (R118 to R120). -/
theorem State.load_eq (s : State) (r : Reg) (src : Source) :
    s.load r src =
      ((s.readSource src).2.setReg r (operandValue s src)).updateZN (operandValue s src) := by
  rw [State.load, State.readSource_fst]

/-- Settles O15: M comes from the operand read, the flags are those of `updateZNWritesZAndNOnly`. -/
theorem loadsSetTheRegisterZAndN : Obligations.LoadsSetTheRegisterZAndN := by
  intro s z w f hf
  refine ⟨decode_of_mem_forms hf rfl, _, exec_of_mem_forms (op := fun h => s.load h.1 h.2) hf rfl, ?_⟩
  generalize f.how = h
  obtain ⟨r, src⟩ := h
  rw [State.load_eq]
  obtain ⟨hzn, hflags, -⟩ := updateZNWritesZAndNOnly
    ((s.readSource src).2.setReg r (operandValue s src)) (operandValue s src)
  refine ⟨?_, hzn, fun g hg => ?_, fun q hq => ?_, ?_⟩
  · rw [State.getReg_updateZN, State.getReg_setReg, if_pos rfl]
  · rw [hflags g hg, State.flag_setReg, State.flag_readSource]
  · rw [State.getReg_updateZN, State.getReg_setReg, if_neg (mt List.mem_singleton.mpr hq),
      State.getReg_readSource]
  · exact ((s.onlyReads_readSource src).setReg r _).setP _

/-! ### Stores -/

/-- A store is one bus write at the effective address, after the indicator is recorded (R121 to R123). -/
theorem State.store_eq (s : State) (r : Reg) (m : MemMode) :
    s.store r m =
      (s.setPageCross (s.effAddr m).1.cross).write8 (s.effAddr m).1.addr (s.getReg r) := by
  rw [State.store, State.address_eq, State.getReg_setPageCross]

/-- Settles O16: the bus write of O7, which starts from the state with the indicator recorded. -/
theorem storesWriteOneByteAndNoFlag : Obligations.StoresWriteOneByteAndNoFlag := by
  intro s z w f hf
  refine ⟨decode_of_mem_forms hf rfl, _, exec_of_mem_forms (op := fun h => s.store h.1 h.2) hf rfl, ?_⟩
  generalize f.how = h
  obtain ⟨r, m⟩ := h
  rw [State.store_eq]
  obtain ⟨hstore, hregs, hsp, hpc, hp, hcur, hhost, hind⟩ := busWriteStoresAndEmits
    (s.setPageCross (s.effAddr m).1.cross) (s.effAddr m).1.addr (s.getReg r)
  exact ⟨hstore, fun q hq => (hregs q hq).trans (s.getReg_setPageCross _ q), hp, hsp, hpc, hcur, hhost, hind⟩

end Sys2Proof.Machine
end

section
/-! The family 42_arithmetic.md. The adder is said once by numbers (O14) and SBC's use of it by
`addC_complement`; what A <- A + M + C writes after an operand read is said once for ADC and SBC
(`State.addsToA_readSource`), and a compare is its flags after the operand read (`State.compare_eq`). -/

namespace Sys2Proof.Machine

/-! ### The adder -/

/-- R126's overflow by signs: the operands have one sign and the result has the other. -/
theorem addC_overflow_signs (a m : Byte) (c : Bool) :
    (addC a m c).overflow = decide (a.msb = m.msb ∧ a.msb ≠ (addC a m c).value.msb) := by
  have hmask : (addC a m c).overflow =
      (((a ^^^ m) ^^^ 0xFF#8) &&& (a ^^^ (addC a m c).value) &&& 0x80#8 != 0) := rfl
  rw [hmask, and_80_ne_zero, xor_FF, BitVec.msb_and, BitVec.msb_not, BitVec.msb_xor, BitVec.msb_xor]
  cases a.msb <;> cases m.msb <;> simp

/-- The result has the wrong sign exactly when the signed sum does not fit: operands of two signs always have
a sum that fits, and a sum of one sign is at most one carry past the range (R124, R126). -/
theorem addC_overflow_signed (a m : Byte) (c : Bool) :
    (addC a m c).overflow = signedOverflow (a.toInt + m.toInt + c.toNat) := by
  have hvalue : (addC a m c).value.toNat = (a.toNat + m.toNat + c.toNat) % 256 := BitVec.toNat_ofNat _ _
  have hc : c.toNat ≤ 1 := c.toNat_le
  rw [addC_overflow_signs, signedOverflow, decide_eq_decide]
  simp only [BitVec.msb_eq_decide, ne_eq, decide_eq_decide, BitVec.toInt_eq_toNat_cond, hvalue]
  by_cases ha : 128 ≤ a.toNat <;> by_cases hm : 128 ≤ m.toNat <;> omega

/-- Settles O14: the byte and the carry are the adder's definition, the overflow is `addC_overflow_signed`. -/
theorem adderGivesSumCarryAndOverflow : Obligations.AdderGivesSumCarryAndOverflow := by
  intro a m c
  refine ⟨BitVec.toNat_ofNat _ _, rfl, ?_, addC_overflow_signed a m c⟩
  rw [← xor_FF]
  rfl

/-- The adder on the complement of `m` subtracts `m` and the borrow (R129). -/
theorem addC_complement (a m : Byte) (c : Bool) :
    ((addC a (m ^^^ 0xFF#8) c).value.toNat : Int) = ((a.toNat : Int) - m.toNat - (1 - c.toNat)) % 256 ∧
    (addC a (m ^^^ 0xFF#8) c).carry = decide (0 ≤ (a.toNat : Int) - m.toNat - (1 - c.toNat)) ∧
    (addC a (m ^^^ 0xFF#8) c).overflow = signedOverflow (a.toInt - m.toInt - (1 - c.toNat)) := by
  obtain ⟨hvalue, hcarry, -, hover⟩ := adderGivesSumCarryAndOverflow a (m ^^^ 0xFF#8) c
  have hm : m.toNat < 256 := m.isLt
  rw [hvalue, hcarry, hover, xor_FF_toNat, xor_FF_toInt]
  refine ⟨by omega, decide_eq_decide.mpr (by omega), congrArg signedOverflow (by omega)⟩

/-! ### ADC and SBC -/

/-- `t` is `s` after the operand read `src` and A <- A + `m` + C (R128, R129), in the adder's terms. -/
structure AddsToA (src : Source) (m : Byte) (s t : State) : Prop where
  value : t.a = (addC s.a m (s.flag .c)).value
  carry : t.flag .c = (addC s.a m (s.flag .c)).carry
  overflow : t.flag .v = (addC s.a m (s.flag .c)).overflow
  frame : ZNOf t t.a ∧ SameFlagsBut [.c, .v, .z, .n] s t ∧ SameRegsBut [.a] s t ∧ OnlyReads src s t

namespace State

variable (s : State)

/-- The addition writes its four flags and no other (R128). -/
theorem flag_addToA (m : Byte) (f : Flag) :
    (s.addToA m).flag f =
      if f = .n then (addC s.a m (s.flag .c)).value.msb
      else if f = .z then (addC s.a m (s.flag .c)).value == 0#8
      else if f = .v then (addC s.a m (s.flag .c)).overflow
      else if f = .c then (addC s.a m (s.flag .c)).carry
      else s.flag f := by
  simp only [addToA, flag_updateZN, flag_setFlag, flag_setA]

/-- It writes A and no other register. -/
theorem getReg_addToA (m : Byte) (r : Reg) :
    (s.addToA m).getReg r = if r = .a then (addC s.a m (s.flag .c)).value else s.getReg r := by
  simp only [addToA, getReg_updateZN, getReg_setFlag, getReg_setA]

/-- What ADC and SBC do: the addition after the operand read, which leaves A and C as they were. -/
theorem addsToA_readSource (src : Source) (m : Byte) : AddsToA src m s ((s.readSource src).2.addToA m) := by
  have ha : (s.readSource src).2.a = s.a := s.getReg_readSource src .a
  have hsum : addC (s.readSource src).2.a m ((s.readSource src).2.flag .c) = addC s.a m (s.flag .c) := by
    rw [ha, flag_readSource]
  refine ⟨(getReg_addToA _ m .a).trans (congrArg Sum.value hsum),
    (flag_addToA _ m .c).trans (congrArg Sum.carry hsum),
    (flag_addToA _ m .v).trans (congrArg Sum.overflow hsum),
    (updateZNWritesZAndNOnly _ _).1, fun f hf => ?_, fun r hr => ?_, ?_⟩
  · simp only [List.mem_cons, List.not_mem_nil, or_false, not_or] at hf
    obtain ⟨hc, hv, hz, hn⟩ := hf
    rw [flag_addToA, if_neg hn, if_neg hz, if_neg hv, if_neg hc, flag_readSource]
  · rw [getReg_addToA, if_neg (mt List.mem_singleton.mpr hr), getReg_readSource]
  · exact ((s.onlyReads_readSource src).setReg .a _).setP _

/-- ADC adds the operand (R128). -/
theorem addsToA_adc (src : Source) : AddsToA src (operandValue s src) s (s.adc src) := by
  rw [adc, readSource_fst]
  exact s.addsToA_readSource src _

/-- SBC adds the operand's complement (R129). -/
theorem addsToA_sbc (src : Source) : AddsToA src (operandValue s src ^^^ 0xFF#8) s (s.sbc src) := by
  rw [sbc, readSource_fst]
  exact s.addsToA_readSource src _

end State

/-- Settles O17: the addition of the operand, by the numbers of O14. -/
theorem adcIsTheBinarySum : Obligations.AdcIsTheBinarySum := by
  intro s z w f hf
  refine ⟨decode_of_mem_forms hf rfl, _, exec_of_mem_forms (op := s.adc) hf rfl, ?_⟩
  generalize f.how = src
  obtain ⟨ha, hc, hv, hframe⟩ := s.addsToA_adc src
  obtain ⟨hvalue, hcarry, -, hover⟩ := adderGivesSumCarryAndOverflow s.a (operandValue s src) (s.flag .c)
  exact ⟨ha ▸ hvalue, hc.trans hcarry, hv.trans hover, hframe⟩

/-- Settles O18: the addition of the complement, by the numbers of `addC_complement`. -/
theorem sbcIsTheDifferenceWithBorrow : Obligations.SbcIsTheDifferenceWithBorrow := by
  refine ⟨fun _ _ => rfl, fun s z w f hf => ?_⟩
  refine ⟨decode_of_mem_forms hf rfl, _, exec_of_mem_forms (op := s.sbc) hf rfl, ?_⟩
  generalize f.how = src
  obtain ⟨ha, hc, hv, hframe⟩ := s.addsToA_sbc src
  obtain ⟨hvalue, hcarry, hover⟩ := addC_complement s.a (operandValue s src) (s.flag .c)
  exact ⟨ha ▸ hvalue, hc.trans hcarry, hv.trans hover, hframe⟩

/-! ### Compares -/

namespace State

variable (s : State)

/-- A compare is the operand read, then the flags (R130 to R132). -/
theorem compare_eq (r : Reg) (src : Source) :
    s.compare r src = (s.readSource src).2.compareFlags (s.getReg r) (operandValue s src) := by
  rw [compare, readSource_fst, getReg_readSource]

/-- A compare writes C, Z and N (R127). -/
theorem flag_compareFlags (reg m : Byte) (f : Flag) :
    (s.compareFlags reg m).flag f =
      if f = .n then (reg - m).msb
      else if f = .z then reg - m == 0#8
      else if f = .c then decide (m.toNat ≤ reg.toNat)
      else s.flag f := by
  simp only [compareFlags, flag_updateZN, flag_setFlag, ge_iff_le]

/-- It writes no register. -/
theorem getReg_compareFlags (reg m : Byte) (r : Reg) : (s.compareFlags reg m).getReg r = s.getReg r := by
  rw [compareFlags, getReg_updateZN, getReg_setFlag]

end State

/-- Settles O19: the flags are those of the wrapped difference, which is zero only for equal bytes. -/
theorem comparesSetCZNOnly : Obligations.ComparesSetCZNOnly := by
  intro s z w f hf
  refine ⟨decode_of_mem_forms hf rfl, _, exec_of_mem_forms (op := fun h => s.compare h.1 h.2) hf rfl, ?_⟩
  generalize f.how = h
  obtain ⟨r, src⟩ := h
  rw [State.compare_eq]
  refine ⟨?_, ?_, ?_, fun g hg => ?_, fun q _ => ?_, ?_⟩
  · exact State.flag_compareFlags _ _ _ .c
  · rw [State.flag_compareFlags, if_neg (by decide), if_pos rfl, beq_eq_decide]
    exact decide_eq_decide.mpr sub_eq_zero
  · rw [State.flag_compareFlags, if_pos rfl, BitVec.msb_eq_decide]
    have hm : (operandValue s src).toNat < 256 := (operandValue s src).isLt
    exact decide_eq_decide.mpr (by rw [BitVec.toNat_sub]; omega)
  · simp only [List.mem_cons, List.not_mem_nil, or_false, not_or] at hg
    obtain ⟨hc, hz, hn⟩ := hg
    rw [State.flag_compareFlags, if_neg hn, if_neg hz, if_neg hc, State.flag_readSource]
  · rw [State.getReg_compareFlags, State.getReg_readSource]
  · exact (s.onlyReads_readSource src).setP _

end Sys2Proof.Machine
end

section
/-! The family 43_logic.md. AND, ORA and EOR are said once as the byte operation of a `LogicOp`
(`LogicOp.onByte`), written to A after the operand read (`State.logic_eq`); BIT is its flags after the operand
read (`State.bitTest_eq`). -/

namespace Sys2Proof.Machine

/-! ### AND, ORA and EOR -/

namespace LogicOp

/-- The operation the meanings give to `State.logic` (R133 to R135). -/
def onByte : LogicOp → Byte → Byte → Byte
  | .and => (· &&& ·)
  | .ora => (· ||| ·)
  | .eor => (· ^^^ ·)

/-- It works bit by bit. -/
theorem getLsbD_onByte (o : LogicOp) (a m : Byte) (k : Nat) :
    (o.onByte a m).getLsbD k = o.onBit (a.getLsbD k) (m.getLsbD k) := by
  cases o with
  | and => exact BitVec.getLsbD_and
  | ora => exact BitVec.getLsbD_or
  | eor => exact BitVec.getLsbD_xor

end LogicOp

namespace State

variable (s : State)

/-- A logic instruction is the operand read, then A and the flags (R133 to R135). -/
theorem logic_eq (op : Byte → Byte → Byte) (src : Source) :
    s.logic op src = ((s.readSource src).2.setA (op s.a (operandValue s src))).updateZN
      (op s.a (operandValue s src)) := by
  have ha : (s.readSource src).2.a = s.a := s.getReg_readSource src .a
  rw [logic, readSource_fst, ha]

/-- It writes A and no other register. -/
theorem getReg_logic (op : Byte → Byte → Byte) (src : Source) (r : Reg) :
    (s.logic op src).getReg r = if r = .a then op s.a (operandValue s src) else s.getReg r := by
  rw [logic_eq, getReg_updateZN, getReg_setA, getReg_readSource]

end State

/-- Settles O20: A holds the byte operation of A and M, the flags are those of `updateZNWritesZAndNOnly`. -/
theorem logicWorksBitwiseOnA : Obligations.LogicWorksBitwiseOnA := by
  intro s z w f hf
  refine ⟨decode_of_mem_forms hf rfl, _,
    exec_of_mem_forms (op := fun h => s.logic h.1.onByte h.2) hf rfl, ?_⟩
  generalize f.how = h
  obtain ⟨o, src⟩ := h
  have ha : (s.logic o.onByte src).a = o.onByte s.a (operandValue s src) := s.getReg_logic o.onByte src .a
  obtain ⟨hzn, hflags, -⟩ := updateZNWritesZAndNOnly
    ((s.readSource src).2.setA (o.onByte s.a (operandValue s src))) (o.onByte s.a (operandValue s src))
  rw [← State.logic_eq] at hzn hflags
  refine ⟨fun k _ => ?_, ha ▸ hzn, fun g hg => ?_, fun q hq => ?_, ?_⟩
  · rw [ha, LogicOp.getLsbD_onByte]
  · rw [hflags g hg, State.flag_setA, State.flag_readSource]
  · rw [State.getReg_logic, if_neg (mt List.mem_singleton.mpr hq)]
  · rw [State.logic_eq]
    exact ((s.onlyReads_readSource src).setReg .a _).setP _

/-! ### BIT -/

namespace State

variable (s : State)

/-- BIT is the operand read, then the flags (R136). -/
theorem bitTest_eq (m : MemMode) :
    s.bitTest m = (s.readSource (.mem m)).2.bitFlags (operandValue s (.mem m)) := by
  rw [bitTest, readSource_fst]

/-- BIT writes Z from A and M, and N and V from M alone (R136). -/
theorem flag_bitFlags (m : Byte) (f : Flag) :
    (s.bitFlags m).flag f =
      if f = .v then m.getLsbD 6
      else if f = .n then m.getLsbD 7
      else if f = .z then s.a &&& m == 0#8
      else s.flag f := by
  simp only [bitFlags, flag_setFlag]

/-- It writes no register. -/
theorem getReg_bitFlags (m : Byte) (r : Reg) : (s.bitFlags m).getReg r = s.getReg r := by
  simp only [bitFlags, getReg_setFlag]

end State

/-- Settles O21: the flags of `State.flag_bitFlags`, on the A that the operand read leaves as it was. -/
theorem bitTestsMemoryAgainstA : Obligations.BitTestsMemoryAgainstA := by
  intro s z w f hf
  refine ⟨decode_of_mem_forms hf rfl, _, exec_of_mem_forms (op := s.bitTest) hf rfl, ?_⟩
  generalize f.how = m
  have ha : (s.readSource (.mem m)).2.a = s.a := s.getReg_readSource _ .a
  rw [State.bitTest_eq]
  refine ⟨?_, ?_, ?_, fun g hg => ?_, fun q _ => ?_, ?_⟩
  · rw [State.flag_bitFlags, if_neg (by decide), if_neg (by decide), if_pos rfl, ha, beq_eq_decide]
  · rw [State.flag_bitFlags, if_neg (by decide), if_pos rfl]
  · rw [State.flag_bitFlags, if_pos rfl]
  · simp only [List.mem_cons, List.not_mem_nil, or_false, not_or] at hg
    obtain ⟨hz, hn, hv⟩ := hg
    rw [State.flag_bitFlags, if_neg hv, if_neg hn, if_neg hz, State.flag_readSource]
  · rw [State.getReg_bitFlags, State.getReg_readSource]
  · exact (s.onlyReads_readSource (.mem m)).setP _

end Sys2Proof.Machine
end

section
/-! The family 44_shift_rotate.md. The four shifts are said once by numbers (`ShiftOp.onByte_value_toNat`,
`ShiftOp.onByte_carry`) and so are the flags they write (`State.shiftFlags_flags`); a memory form is the operand
read, then one bus write at the same address (`State.shift_mem_eq`, `State.rewritesOperand_write8`). -/

namespace Sys2Proof.Machine

/-! ### The four shifts -/

namespace ShiftOp

/-- The operation the meanings give to `State.shift` (R138 to R141). -/
def onByte : ShiftOp → Bool → Byte → Shifted
  | .asl => shiftAsl
  | .lsr => shiftLsr
  | .rol => shiftRol
  | .ror => shiftRor

/-- The shifted byte; the old C of a rotate enters at a bit that the shift has cleared, so it is added. -/
theorem onByte_value_toNat (o : ShiftOp) (c : Bool) (v : Byte) : (o.onByte c v).value.toNat = o.result c v := by
  have hleft : (v <<< 1).toNat = (v.toNat % 128) <<< 1 := by
    rw [BitVec.toNat_shiftLeft, Nat.shiftLeft_eq, Nat.shiftLeft_eq]
    omega
  have hright : (v >>> 1).toNat = v.toNat / 2 := BitVec.toNat_ushiftRight v 1
  cases o with
  | asl =>
    show (v <<< 1).toNat = 2 * v.toNat % 256
    rw [hleft, Nat.shiftLeft_eq]
    omega
  | lsr => exact hright
  | rol =>
    show ((v <<< 1) ||| (BitVec.ofBool c).setWidth 8).toNat = (2 * v.toNat + c.toNat) % 256
    have hcarry : ((BitVec.ofBool c).setWidth 8).toNat = c.toNat := by cases c <;> rfl
    have hc : c.toNat < 2 ^ 1 := c.toNat_lt
    rw [BitVec.toNat_or, hleft, hcarry, ← Nat.shiftLeft_add_eq_or_of_lt hc, Nat.shiftLeft_eq]
    omega
  | ror =>
    show ((v >>> 1) ||| ((BitVec.ofBool c).setWidth 8 <<< 7)).toNat = v.toNat / 2 + 128 * c.toNat
    have htop : ((BitVec.ofBool c).setWidth 8 <<< 7).toNat = c.toNat <<< 7 := by cases c <;> rfl
    have hlow : v.toNat / 2 < 2 ^ 7 := by have := v.isLt; omega
    rw [BitVec.toNat_or, hright, htop, Nat.or_comm, ← Nat.shiftLeft_add_eq_or_of_lt hlow, Nat.shiftLeft_eq]
    omega

/-- The bit shifted out is the top bit to the left and the bottom bit to the right. -/
theorem onByte_carry (o : ShiftOp) (c : Bool) (v : Byte) : (o.onByte c v).carry = o.carryOut v := by
  have htop : v.getLsbD 7 = decide (128 ≤ v.toNat) := BitVec.msb_eq_decide v
  have hbottom : v.getLsbD 0 = decide (v.toNat % 2 = 1) := Nat.testBit_zero v.toNat
  cases o with
  | asl | rol => exact htop
  | lsr | ror => exact hbottom

end ShiftOp

/-! ### The flags of a shift -/

namespace State

variable (s : State)

/-- A shift writes C, Z and N and no other flag (R138 to R141). -/
theorem shiftFlags_flags (r : Shifted) :
    (s.shiftFlags r).flag .c = r.carry ∧ ZNOf (s.shiftFlags r) r.value ∧
    SameFlagsBut [.c, .z, .n] s (s.shiftFlags r) := by
  obtain ⟨hzn, hflags, -⟩ := updateZNWritesZAndNOnly (s.setFlag .c r.carry) r.value
  refine ⟨?_, hzn, fun f hf => ?_⟩
  · rw [shiftFlags, hflags .c (by decide), flag_setFlag, if_pos rfl]
  · obtain ⟨hc, hzn'⟩ := not_or.mp (mt List.mem_cons.mpr hf)
    rw [shiftFlags, hflags f hzn', flag_setFlag, if_neg hc]

/-- It writes no register. -/
theorem getReg_shiftFlags (r : Shifted) (q : Reg) : (s.shiftFlags r).getReg q = s.getReg q := by
  rw [shiftFlags, getReg_updateZN, getReg_setFlag]

end State

/-! ### Read-modify-write -/

/-- Beside the flags, the operand read and one bus write of `v` at its address are all that took `s` to `t`. -/
structure RewritesOperand (m : MemMode) (v : Byte) (s t : State) : Prop where
  stores : StoresByte (s.effAddr m).1.addr v s t
  regs : SameRegsBut [] s t
  frame : t.sp = s.sp ∧ t.pc = s.pc ∧ t.kbdCur = cursorAfterOperand s (.mem m) ∧ SameHost s t ∧
    Indicators (s.effAddr m).1.cross s.taken t

/-- Writing flags is no bus access. -/
theorem RewritesOperand.setP {m : MemMode} {v : Byte} {s t : State} (h : RewritesOperand m v s t) (p : Byte) :
    RewritesOperand m v s (t.setP p) :=
  ⟨h.stores, fun q hq => (t.getReg_setP p q).trans (h.regs q hq), h.frame⟩

namespace State

variable (s : State)

/-- The write of a read-modify-write instruction, after its read (R137). -/
theorem rewritesOperand_write8 (m : MemMode) (v : Byte) :
    RewritesOperand m v s ((s.readSource (.mem m)).2.write8 (s.effAddr m).1.addr v) := by
  have hread : (s.readSource (.mem m)).2 =
      (s.setPageCross (s.effAddr m).1.cross).setKbdCur (cursorAfterOperand s (.mem m)) := by
    rw [readSource_eq]
    rfl
  rw [hread]
  obtain ⟨hstore, hregs, hsp, hpc, -, hcur, hhost, hind⟩ := busWriteStoresAndEmits
    ((s.setPageCross (s.effAddr m).1.cross).setKbdCur (cursorAfterOperand s (.mem m)))
    (s.effAddr m).1.addr v
  exact ⟨hstore, fun q hq => (hregs q hq).trans (by rw [getReg_setKbdCur, getReg_setPageCross]),
    hsp, hpc, hcur, hhost, hind⟩

/-- Neither the read nor the write touches a flag. -/
theorem flag_write8_readSource (m : MemMode) (a : Addr) (v : Byte) (f : Flag) :
    ((s.readSource (.mem m)).2.write8 a v).flag f = s.flag f := by
  rw [write8_eq, flag_setEvents, flag_setMem, flag_readSource]

/-- A shift on memory is the operand read, the write of the shifted byte, then the flags (R137 to R141). -/
theorem shift_mem_eq (f : Bool → Byte → Shifted) (m : MemMode) :
    s.shift f (.mem m) =
      ((s.readSource (.mem m)).2.write8 (s.effAddr m).1.addr
        (f (s.flag .c) (operandValue s (.mem m))).value).shiftFlags
        (f (s.flag .c) (operandValue s (.mem m))) := by
  rw [← readSource_fst, ← s.flag_readSource (.mem m) .c]
  simp only [shift, readSource, address_eq]

end State

/-! ### ASL, LSR, ROL and ROR -/

/-- Settles O22: the numbers of `ShiftOp.onByte` and the flags of `State.shiftFlags_flags`, on A or after the
one write of `State.rewritesOperand_write8`. -/
theorem shiftsAndRotatesMoveOneBit : Obligations.ShiftsAndRotatesMoveOneBit := by
  constructor
  · intro s f hf
    refine ⟨decode_of_mem_forms hf rfl, _, exec_of_mem_forms (op := fun o => s.shift o.onByte .acc) hf rfl, ?_⟩
    generalize f.how = o
    obtain ⟨hc, hzn, hflags⟩ := (s.setA (o.onByte (s.flag .c) s.a).value).shiftFlags_flags
      (o.onByte (s.flag .c) s.a)
    refine ⟨o.onByte_value_toNat _ _, hc.trans (o.onByte_carry _ _), hzn, hflags, fun q hq => ?_, rfl, rfl,
      fun _ => rfl, rfl, rfl, ⟨rfl, rfl, rfl, rfl, rfl, rfl, rfl⟩, rfl, rfl⟩
    rw [State.shift, State.getReg_shiftFlags, State.getReg_setA, if_neg (mt List.mem_singleton.mpr hq)]
  · intro s z w f hf
    refine ⟨decode_of_mem_forms hf rfl, _, (f.how.1.onByte (s.flag .c) (operandValue s (.mem f.how.2))).value,
      exec_of_mem_forms (op := fun h => s.shift h.1.onByte (.mem h.2)) hf rfl, ?_⟩
    generalize f.how = h
    obtain ⟨o, m⟩ := h
    rw [State.shift_mem_eq]
    have hvalue := o.onByte_value_toNat (s.flag .c) (operandValue s (.mem m))
    have hcarry := o.onByte_carry (s.flag .c) (operandValue s (.mem m))
    generalize o.onByte (s.flag .c) (operandValue s (.mem m)) = r at hvalue hcarry ⊢
    have hkept := s.flag_write8_readSource m (s.effAddr m).1.addr r.value
    have hwrites := s.rewritesOperand_write8 m r.value
    generalize (s.readSource (.mem m)).2.write8 (s.effAddr m).1.addr r.value = u at hkept hwrites ⊢
    obtain ⟨hc, hzn, hflags⟩ := u.shiftFlags_flags r
    obtain ⟨hstores, hregs, hframe⟩ := hwrites.setP (u.shiftFlags r).p
    exact ⟨hvalue, hc.trans hcarry, hzn, hstores, fun g hg => (hflags g hg).trans (hkept g), hregs, hframe⟩

end Sys2Proof.Machine
end

section
/-! The family 45_inc_dec.md. The wrapping sum is said once by numbers (`add_ofInt_toNat`); INC and DEC are the
operand read, then one bus write at the same address (`State.addToMemory_eq`), and a step of an index register
is a transfer of the sum into it (`State.addToReg_eq_transfer`). -/

namespace Sys2Proof.Machine

/-- A byte plus any signed amount, modulo 256. -/
theorem add_ofInt_toNat (v : Byte) (d : Int) :
    ((v + BitVec.ofInt 8 d).toNat : Int) = (v.toNat + d) % 256 := by
  have hd : 0 ≤ d % 256 := Int.emod_nonneg d (by decide)
  rw [BitVec.toNat_add, BitVec.toNat_ofInt]
  omega

/-! ### INC and DEC -/

/-- INC and DEC are the operand read, the write of the sum, then the flags (R142, R143). -/
theorem State.addToMemory_eq (s : State) (d : Byte) (m : MemMode) :
    s.addToMemory d m =
      ((s.readSource (.mem m)).2.write8 (s.effAddr m).1.addr (operandValue s (.mem m) + d)).updateZN
        (operandValue s (.mem m) + d) := by
  rw [← readSource_fst]
  simp only [addToMemory, readSource, address_eq]

/-- Settles O23: the number of the wrapping sum, written once by `State.rewritesOperand_write8`. -/
theorem incAndDecWriteOnceModulo256 : Obligations.IncAndDecWriteOnceModulo256 := by
  intro s z w f hf
  refine ⟨decode_of_mem_forms hf rfl, _, operandValue s (.mem f.how.2) + BitVec.ofInt 8 f.how.1,
    exec_of_mem_forms (op := fun h => s.addToMemory (BitVec.ofInt 8 h.1) h.2) hf rfl, ?_⟩
  generalize f.how = h
  obtain ⟨d, m⟩ := h
  rw [State.addToMemory_eq]
  have hvalue := add_ofInt_toNat (operandValue s (.mem m)) d
  generalize operandValue s (.mem m) + BitVec.ofInt 8 d = r at hvalue ⊢
  have hkept := s.flag_write8_readSource m (s.effAddr m).1.addr r
  have hwrites := s.rewritesOperand_write8 m r
  generalize (s.readSource (.mem m)).2.write8 (s.effAddr m).1.addr r = u at hkept hwrites ⊢
  obtain ⟨hzn, hflags, -⟩ := updateZNWritesZAndNOnly u r
  obtain ⟨hstores, hregs, hframe⟩ := hwrites.setP (u.updateZN r).p
  exact ⟨hvalue, hzn, hstores, fun g hg => (hflags g hg).trans (hkept g), hregs, hframe⟩

/-! ### INX, INY, DEX and DEY -/

/-- Writing a register is no bus access. -/
theorem Quiet.setReg {s t : State} (h : Quiet s t) (r : Reg) (v : Byte) : Quiet s (t.setReg r v) := by
  cases r <;> exact h

/-- Nor is writing flags. -/
theorem Quiet.setP {s t : State} (h : Quiet s t) (p : Byte) : Quiet s (t.setP p) := h

namespace State

variable (s : State)

/-- A state leaves no trace on itself. -/
theorem quiet_self : Quiet s s :=
  ⟨fun _ => rfl, rfl, rfl, ⟨rfl, rfl, rfl, rfl, rfl, rfl, rfl⟩, rfl, rfl⟩

/-- Putting `v` in a register with Z and N on it writes nothing else (R144 to R152). -/
theorem transfer_writes (v : Byte) (r : Reg) :
    (s.transfer v r).getReg r = v ∧ ZNOf (s.transfer v r) v ∧ SameFlagsBut [.z, .n] s (s.transfer v r) ∧
    SameRegsBut [r] s (s.transfer v r) ∧ (s.transfer v r).sp = s.sp ∧ (s.transfer v r).pc = s.pc ∧
    Quiet s (s.transfer v r) := by
  obtain ⟨hzn, hflags, -⟩ := updateZNWritesZAndNOnly (s.setReg r v) v
  refine ⟨?_, hzn, fun f hf => ?_, fun q hq => ?_, s.setReg_sp r v, s.setReg_pc r v,
    (s.quiet_self.setReg r v).setP _⟩
  · rw [transfer, getReg_updateZN, getReg_setReg, if_pos rfl]
  · exact (hflags f hf).trans (s.flag_setReg r v f)
  · rw [transfer, getReg_updateZN, getReg_setReg, if_neg (mt List.mem_singleton.mpr hq)]

/-- A step of a register is a transfer of the sum into it. -/
theorem addToReg_eq_transfer (r : Reg) (d : Byte) : s.addToReg r d = s.transfer (s.getReg r + d) r := rfl

end State

/-- Settles O24: the register holds the wrapping sum, and `State.transfer_writes` says the rest. -/
theorem indexRegistersStepModulo256 : Obligations.IndexRegistersStepModulo256 := by
  intro s f hf
  refine ⟨decode_of_mem_forms hf rfl, _,
    exec_of_mem_forms (op := fun h => s.addToReg h.1 (BitVec.ofInt 8 h.2)) hf rfl, ?_⟩
  generalize f.how = h
  obtain ⟨r, d⟩ := h
  rw [State.addToReg_eq_transfer]
  obtain ⟨hreg, hframe⟩ := s.transfer_writes (s.getReg r + BitVec.ofInt 8 d) r
  rw [hreg]
  exact ⟨add_ofInt_toNat (s.getReg r) d, hframe⟩

end Sys2Proof.Machine
end

section
/-! The family 46_transfer_flag.md. A transfer is `State.transfer` of its source, whose writes are said by
`State.transfer_writes`; TXS sets SP alone, and a flag instruction is one `State.setFlag`. -/

namespace Sys2Proof.Machine

/-- Writing SP is no bus access. -/
theorem Quiet.setSp {s t : State} (h : Quiet s t) (v : Byte) : Quiet s (t.setSp v) := h

/-- Settles O25: five are a `State.transfer` of the source; TXS is `State.setSp`. -/
theorem transfersCopyAndOnlyTxsKeepsFlags : Obligations.TransfersCopyAndOnlyTxsKeepsFlags := by
  refine ⟨fun s f hf => ?_, ⟨decode_encode_append .tsx [], fun s => ?_⟩,
    decode_encode_append .txs [], fun s => ?_⟩
  · exact ⟨decode_of_mem_forms hf rfl, _,
      exec_of_mem_forms (op := fun h => s.transfer (s.getReg h.1) h.2) hf rfl,
      s.transfer_writes (s.getReg f.how.1) f.how.2⟩
  · exact ⟨_, rfl, s.transfer_writes s.sp .x⟩
  · exact ⟨s.setSp s.x, rfl, s.setSp_sp s.x, s.setSp_p s.x, fun r _ => s.getReg_setSp s.x r,
      s.setSp_pc s.x, s.quiet_self.setSp s.x⟩

/-- Settles O26: each is one `State.setFlag`, whose other seven flags O13 keeps. -/
theorem flagInstructionsWriteOneFlag : Obligations.FlagInstructionsWriteOneFlag := by
  intro s f hf
  refine ⟨decode_of_mem_forms hf rfl, _,
    exec_of_mem_forms (op := fun h => s.setFlag h.1 h.2) hf rfl, ?_⟩
  generalize f.how = h
  obtain ⟨g, b⟩ := h
  obtain ⟨hwritten, hothers, -⟩ := setFlagLeavesTheOtherSeven s g b
  exact ⟨hwritten, hothers, fun r _ => s.getReg_setFlag g b r, s.setFlag_sp g b, s.setFlag_pc g b,
    s.quiet_self.setP _⟩

end Sys2Proof.Machine
end

section
/-! The family 47_branch_jump.md. A branch (`State.branch_eq`) and RTS (`State.returnFromSubroutine_eq`) have one
equation each that says everything they do; the two reads of an indirect jump do not meet, since they lie at
different addresses (`State.indirectTarget_reads`); JSR is the push of O8 and RTS after it the pop of O9. -/

namespace Sys2Proof.Machine

/-- Writing PC is no bus access. -/
theorem Quiet.setPc {s t : State} (h : Quiet s t) (w : Addr) : Quiet s (t.setPc w) := h

/-- Nor is writing PC a push. -/
theorem PushesBytes.setPc {vs : List Byte} {s t : State} (h : PushesBytes vs s t) (w : Addr) :
    PushesBytes vs s (t.setPc w) := h

namespace State

variable (s : State)

theorem sameHost_self : SameHost s s := ⟨rfl, rfl, rfl, rfl, rfl, rfl, rfl⟩

/-! ### Branches -/

/-- A branch writes the two indicators, and PC when it is taken (R161). -/
theorem branch_eq (taken : Bool) (r : Byte) :
    s.branch taken r =
      ((s.setPageCross (branchTarget s.pc r).cross).setTaken taken).setPc
        (if taken then (branchTarget s.pc r).addr else s.pc) := by
  cases taken <;> rfl

end State

/-- The meaning of every branch form is a branch on its flag's value (R162 to R169). -/
theorem exec_branchForms (s : State) (z : Byte) :
    ((branchForms z).map fun f => exec f.instr s) =
      (branchForms z).map fun f => .next (s.branch (decide (s.flag f.how.1 = f.how.2)) z) := by
  simp only [branchForms, List.map_cons, List.map_nil, Bool.decide_eq_true, Bool.decide_eq_false]
  rfl

/-- Settles O27: the target's number is O11's, and `State.branch_eq` says the rest. -/
theorem branchesFollowTheirFlag : Obligations.BranchesFollowTheirFlag := by
  intro s z f hf
  refine ⟨decode_of_mem_forms hf rfl, _,
    exec_of_mem_forms (op := fun h => s.branch (decide (s.flag h.1 = h.2)) z) hf
      (exec_branchForms s z), ?_⟩
  generalize f.how = h
  obtain ⟨g, b⟩ := h
  have hpc : ((if s.flag g = b then (branchTarget s.pc z).addr else s.pc).toNat : Int) =
      if s.flag g = b then ((s.pc.toNat : Int) + z.toInt) % 65536 else s.pc.toNat := by
    obtain ⟨htarget, -⟩ := branchTargetIsPcPlusSignedOffset.1 s.pc z
    split
    · exact htarget
    · rfl
  rw [State.branch_eq]
  simp only [decide_eq_true_eq]
  exact ⟨hpc, rfl, fun r _ => by simp, rfl, fun _ => rfl, rfl, rfl, s.sameHost_self, rfl, rfl⟩

/-! ### Jumps -/

/-- The address of the pointer's high byte as the number R113 gives. -/
theorem pageWrapNext_eq_ofNat (w : Addr) :
    pageWrapNext w = BitVec.ofNat 16 (w.toNat / 256 * 256 + (w.toNat + 1) % 256) := by
  rw [← pageWrapNext_toNat, BitVec.ofNat_toNat, BitVec.setWidth_eq]

namespace State

variable (s : State)

/-- After a read at another address a bus read gives what it would have given before it (R57). -/
theorem busValue_setKbdCur_curAfterRead {a b : Addr} (h : a ≠ b) :
    busValue (s.setKbdCur (s.curAfterRead a)) b = busValue s b := by
  have hread := (s.setPc a).busValue_fetch8 h.symm
  rw [fetch8_eq] at hread
  exact hread

/-- Two reads at different addresses move the keyboard cursor once, if one of them is at 0xF000 (R57). -/
theorem curAfterRead_curAfterRead {a b : Addr} (h : a ≠ b) :
    (s.setKbdCur (s.curAfterRead a)).curAfterRead b = max (cursorAfter s a) (cursorAfter s b) := by
  show _ = max (s.curAfterRead a) (s.curAfterRead b)
  have ha := s.curAfterRead_le a
  have hb := s.curAfterRead_le b
  by_cases hkbd : b = Config.ioKbd
  · rw [s.curAfterRead_of_ne fun e => h (e.trans hkbd.symm)] at ha ⊢
    exact (Nat.max_eq_right hb).symm
  · rw [curAfterRead_of_ne _ hkbd, curAfterRead_of_ne _ hkbd]
    exact (Nat.max_eq_left ha).symm

/-- An indirect jump's target and the state its two reads leave, in the words of the statements (R113, R116). -/
theorem indirectTarget_reads (w : Addr) :
    s.indirectTarget w =
      (joinBytes (busValue s w) (busValue s (pageWrapNext w)),
        s.setKbdCur (max (cursorAfter s w) (cursorAfter s (pageWrapNext w)))) := by
  have hne := (pageWrapNext_ne w).symm
  rw [indirectTarget_eq, read8_fst, read8_fst, busValue_setKbdCur_curAfterRead s hne,
    curAfterRead_curAfterRead s hne]

end State

/-- Settles O28: JMP absolute is `State.setPc`; the indirect one first makes the reads of
`State.indirectTarget_reads`. -/
theorem jumpsLoadPcWithThePageWrapBug : Obligations.JumpsLoadPcWithThePageWrapBug := by
  intro s w
  refine ⟨decode_encode_append (.jmpAbs w) [], decode_encode_append (.jmpInd w) [],
    ⟨s.setPc w, rfl, rfl, rfl, fun r _ => s.getReg_setPc w r, rfl, s.quiet_self.setPc w⟩,
    (s.indirectTarget w).2.setPc (s.indirectTarget w).1, rfl, ?_⟩
  rw [State.indirectTarget_reads, ← pageWrapNext_eq_ofNat]
  exact ⟨⟨joinBytes_toNat _ _, rfl⟩, rfl, fun r _ => by simp, rfl, fun _ => rfl, rfl, s.sameHost_self,
    rfl, rfl⟩

/-! ### Subroutines -/

/-- Settles O29: JSR is the push of O8, then `State.setPc`. -/
theorem jsrPushesTheLastOperandAddress : Obligations.JsrPushesTheLastOperandAddress := by
  intro s w
  obtain ⟨-, hpushes, -⟩ := pushesStayInTheStackPage s 0#8 (s.pc - 1#16)
  refine ⟨decode_encode_append (.jsr w) [], s.callSubroutine w, rfl, rfl, hpushes.setPc w, ?_⟩
  rw [State.callSubroutine, State.push16_eq]
  exact ⟨rfl, fun r _ => by simp, s.sameHost_self⟩

namespace State

variable (s : State)

/-- A return goes past the word above SP and raises SP by two (R172). -/
theorem returnFromSubroutine_eq :
    s.returnFromSubroutine =
      (s.setSp (s.sp + 2#8)).setPc
        (joinBytes (s.peek (stackAddr (s.sp + 1#8))) (s.peek (stackAddr (s.sp + 2#8))) + 1#16) := by
  rw [returnFromSubroutine, pop16_eq, BitVec.add_assoc]
  rfl

/-- A return sees memory and SP only. -/
theorem returnFromSubroutine_congr {s t : State} (hmem : t.mem = s.mem) (hsp : t.sp = s.sp) :
    t.returnFromSubroutine.pc = s.returnFromSubroutine.pc ∧
      t.returnFromSubroutine.sp = s.returnFromSubroutine.sp := by
  simp only [returnFromSubroutine_eq, setPc_pc, setPc_sp, setSp_sp, peek, hmem, hsp, and_self]

/-- A return goes past a word that was pushed, with SP as before the push. -/
theorem returnFromSubroutine_push16 (w : Addr) (hwf : s.mem.wf) :
    (s.push16 w).returnFromSubroutine = ((s.push16 w).setSp s.sp).setPc (w + 1#16) := by
  obtain ⟨-, hpop⟩ := popGivesBackWhatWasPushed s 0#8 w hwf
  rw [returnFromSubroutine, hpop]

end State

/-- Settles O30: the popped word is that of `State.returnFromSubroutine_eq`, and after a JSR the one it pushed;
what the subroutine did to the other registers is not seen (`State.returnFromSubroutine_congr`). -/
theorem rtsReturnsToTheWordPlusOne : Obligations.RtsReturnsToTheWordPlusOne := by
  refine ⟨decode_encode_append .rts [], fun s => ⟨_, rfl, ?_⟩, fun s t w pc a x y p hwf hjsr => ⟨_, rfl, ?_⟩⟩
  · rw [State.returnFromSubroutine_eq]
    refine ⟨?_, rfl, rfl, fun r _ => by simp, (s.quiet_self.setSp _).setPc _⟩
    rw [State.setPc_pc, BitVec.toNat_add, joinBytes_toNat]
    rfl
  · cases hjsr
    obtain ⟨hpc, hsp⟩ := State.returnFromSubroutine_congr (s := s.push16 (s.pc - 1#16))
      (t := (((((s.callSubroutine w).setPc pc).setA a).setX x).setY y).setP p) rfl rfl
    rw [s.returnFromSubroutine_push16 _ hwf] at hpc hsp
    exact ⟨hpc.trans (BitVec.sub_add_cancel s.pc 1#16), hsp⟩

end Sys2Proof.Machine
end

section
/-! The family 48_stack.md. A push and a pull have one lemma each for all they do (`State.push8_writes`,
`State.pop8_eq`); PLA is a transfer of the pulled byte, and the flags of a pulled status are said once for PLP
and RTI (`flags_of_pulledStatus`). -/

namespace Sys2Proof.Machine

/-- A push writes its byte in the stack page, and SP (R71). -/
theorem State.push8_writes (s : State) (v : Byte) :
    PushesBytes [v] s (s.push8 v) ∧ (s.push8 v).p = s.p ∧ (s.push8 v).pc = s.pc ∧
    SameRegsBut [] s (s.push8 v) ∧ SameHost s (s.push8 v) := by
  obtain ⟨hpush, -⟩ := pushesStayInTheStackPage s v 0#16
  refine ⟨hpush, ?_⟩
  rw [State.push8_eq]
  exact ⟨rfl, rfl, fun r _ => by rw [State.getReg_setSp, State.getReg_poke], s.sameHost_self⟩

/-- Settles O31: each is one push. -/
theorem phaAndPhpPushOneByte : Obligations.PhaAndPhpPushOneByte :=
  ⟨decode_encode_append .pha [], decode_encode_append .php [], fun s =>
    ⟨⟨_, rfl, s.push8_writes s.a⟩, _, rfl, s.push8_writes (pushedStatus s.p true)⟩⟩

/-- The flags of a state whose P is a pulled status (R40). -/
theorem flags_of_pulledStatus {t : State} {v : Byte} (h : t.p = pulledStatus v) :
    t.flag .b = false ∧ t.flag .u = true ∧
    ∀ f : Flag, f ∉ [Flag.b, Flag.u] → t.flag f = v.getLsbD f.bit := by
  have hflag (f : Flag) :
      t.flag f = if f = .b then false else if f = .u then true else v.getLsbD f.bit := by
    rw [State.flag, h, getLsbD_pulledStatus]
  refine ⟨hflag .b, hflag .u, fun f hf => ?_⟩
  simp only [List.mem_cons, List.not_mem_nil, or_false, not_or] at hf
  obtain ⟨hb, hu⟩ := hf
  rw [hflag, if_neg hb, if_neg hu]

/-- PLA transfers the byte above SP into A (R174). -/
theorem exec_pla (s : State) :
    exec .pla s = .next ((s.setSp (s.sp + 1#8)).transfer (s.peek (stackAddr (s.sp + 1#8))) .a) := by
  show Host.Outcome.next ((s.pop8.2.setA s.pop8.1).updateZN s.pop8.1) = _
  rw [State.pop8_eq]
  rfl

/-- PLP writes the status pulled from above SP (R176). -/
theorem exec_plp (s : State) :
    exec .plp s =
      .next ((s.setSp (s.sp + 1#8)).setP (pulledStatus (s.peek (stackAddr (s.sp + 1#8))))) := by
  show Host.Outcome.next (s.pop8.2.setP (pulledStatus s.pop8.1)) = _
  rw [State.pop8_eq]

/-- Settles O32: what a transfer writes and the flags of a pulled status, after SP moved. -/
theorem plaAndPlpPullOneByte : Obligations.PlaAndPlpPullOneByte := by
  refine ⟨decode_encode_append .pla [], decode_encode_append .plp [], fun s =>
    ⟨⟨_, exec_pla s, ?_⟩, _, exec_plp s, ?_⟩⟩
  · obtain ⟨ha, hzn, hflags, hregs, hsp, hpc, hquiet⟩ :=
      (s.setSp (s.sp + 1#8)).transfer_writes (s.peek (stackAddr (s.sp + 1#8))) .a
    refine ⟨ha, ha.symm ▸ hzn, hflags, hsp, hpc, fun r hr => ?_, hquiet⟩
    rw [hregs r hr, State.getReg_setSp]
  · obtain ⟨hb, hu, hflags⟩ := flags_of_pulledStatus
      (t := (s.setSp (s.sp + 1#8)).setP (pulledStatus (s.peek (stackAddr (s.sp + 1#8))))) rfl
    exact ⟨hb, hu, hflags, rfl, rfl, fun r _ => by rw [State.getReg_setP, State.getReg_setSp],
      (s.quiet_self.setSp _).setP _⟩

end Sys2Proof.Machine
end

section
/-! The family 49_system.md, with the service sequence of 60_exceptions.md (O33). BRK is that service, and RTI
undoes it because it pulls the three bytes that were pushed (`returnFromInterrupt_of_pushes`). -/

namespace Sys2Proof.Machine

/-! ### The service sequence -/

/-- What is kept includes what no instruction but BRK writes. -/
theorem Keeps.sameHost {s t : State} (k : Keeps s t) : SameHost s t :=
  ⟨k.irqPending, k.nmiPending, k.halted, k.romLoaded, k.kbdBuf, k.cycles, k.draws⟩

/-- Settles O33, from the equation of the sequence at the two vectors (`State.serviceSequence_pushes` and the
lemmas after it). -/
theorem serviceSequencePushesThreeBytesAndMasks : Obligations.ServiceSequencePushesThreeBytesAndMasks := by
  intro s brk vector hv t
  have hflag := s.serviceSequence_flag hv brk
  refine ⟨s.serviceSequence_pushes hv brk, s.serviceSequence_pc hv brk, hflag .i, fun f hf => ?_,
    fun r _ => s.serviceSequence_getReg hv brk r, (s.keeps_serviceSequence vector brk).sameHost⟩
  exact (hflag f).trans (if_neg (mt List.mem_singleton.mpr hf))

/-- Settles O37: BRK is the service of O33 at the IRQ vector, then `State.setHalted`. -/
theorem brkServicesTheIrqVectorAndHalts : Obligations.BrkServicesTheIrqVectorAndHalts := by
  intro s p
  obtain ⟨hpushes, hpc, hi, hflags, hregs, hirq, hnmi, -, hrom, hkbd, hcycles, hdraws⟩ :=
    serviceSequencePushesThreeBytesAndMasks s true Config.irqVector (by decide)
  refine ⟨decode_encode_append (.brk p) [], _, rfl, hpushes, hpc, hi, hflags, fun r hr => ?_, rfl,
    hirq, hnmi, hrom, hkbd, hcycles, hdraws⟩
  rw [State.getReg_setHalted]
  exact hregs r hr

/-! ### RTI -/

/-- `returnFromInterrupt_eq` with the offsets from SP added up. -/
theorem State.returnFromInterrupt_eq_offsets (s : State) :
    s.returnFromInterrupt =
      ((s.setP (pulledStatus (s.peek (stackAddr (s.sp + 1#8))))).setSp (s.sp + 3#8)).setPc
        (joinBytes (s.peek (stackAddr (s.sp + 2#8))) (s.peek (stackAddr (s.sp + 3#8)))) := by
  have h2 : s.sp + 1#8 + 1#8 = s.sp + 2#8 := BitVec.add_assoc ..
  have h3 : s.sp + 2#8 + 1#8 = s.sp + 3#8 := BitVec.add_assoc ..
  rw [State.returnFromInterrupt_eq, h2, h3]

/-- Settles O38, from `State.returnFromInterrupt_eq_offsets`. -/
theorem rtiPullsStatusAndPc : Obligations.RtiPullsStatusAndPc := by
  refine ⟨decode_encode_append .rti [], fun s => ⟨_, rfl, ?_⟩⟩
  rw [State.returnFromInterrupt_eq_offsets]
  obtain ⟨hb, hu, hflags⟩ := flags_of_pulledStatus
    (t := s.setP (pulledStatus (s.peek (stackAddr (s.sp + 1#8))))) rfl
  exact ⟨hb, hu, hflags, joinBytes_toNat _ _, rfl, fun r _ => by simp,
    ((s.quiet_self.setP _).setSp _).setPc _⟩

/-- A return from an interrupt pulls what was pushed (R178, R183). -/
theorem returnFromInterrupt_of_pushes {s t : State} {pc : Addr} {p : Byte} (hwf : s.mem.wf)
    (h : PushesBytes [hiByte pc, loByte pc, p] s t) :
    t.returnFromInterrupt.pc = pc ∧ t.returnFromInterrupt.sp = s.sp ∧
    t.returnFromInterrupt.p = pulledStatus p := by
  obtain ⟨hsp, -, hread, -⟩ := h
  have hsp3 : t.sp = s.sp - 3#8 := hsp
  have hhi : t.peek (stackAddr (s.sp - 0#8)) = hiByte pc := hread hwf 0 (show 0 < 3 by decide)
  have hlo : t.peek (stackAddr (s.sp - 1#8)) = loByte pc := hread hwf 1 (show 1 < 3 by decide)
  have hstatus : t.peek (stackAddr (s.sp - 2#8)) = p := hread hwf 2 (show 2 < 3 by decide)
  have h1 : s.sp - 3#8 + 1#8 = s.sp - 2#8 := by bv_omega
  have h2 : s.sp - 3#8 + 2#8 = s.sp - 1#8 := by bv_omega
  have h3 : s.sp - 3#8 + 3#8 = s.sp - 0#8 := by bv_omega
  rw [State.returnFromInterrupt_eq_offsets, hsp3, h1, h2, h3, hhi, hlo, hstatus]
  exact ⟨joinBytes_lo_hi pc, BitVec.sub_zero s.sp, rfl⟩

/-- Outside bits 4 and 5 the pushed status is P (R38, R39). -/
theorem getLsbD_pushedStatus (p : Byte) (brk : Bool) {f : Flag} (hf : f ∉ [Flag.b, Flag.u]) :
    (pushedStatus p brk).getLsbD f.bit = p.getLsbD f.bit := by
  revert hf
  cases f <;> revert p brk <;> decide

/-- Settles O39: what the handler did to the registers is not seen by the return, which pulls what O33 says was
pushed (`returnFromInterrupt_of_pushes`). -/
theorem rtiUndoesAService : Obligations.RtiUndoesAService := by
  intro s brk pc a x y p hwf vector hv t
  obtain ⟨hpushes, -⟩ := serviceSequencePushesThreeBytesAndMasks s brk vector hv
  have hhandled : PushesBytes [hiByte s.pc, loByte s.pc, pushedStatus s.p brk] s
      (((((t.setPc pc).setA a).setX x).setY y).setP p) := hpushes
  obtain ⟨hpc, hsp, hp⟩ := returnFromInterrupt_of_pushes hwf hhandled
  obtain ⟨-, -, hflags⟩ := flags_of_pulledStatus hp
  exact ⟨_, rfl, hpc, hsp, fun f hf => (hflags f hf).trans (getLsbD_pushedStatus s.p brk hf)⟩

/-! ### NOP -/

/-- Settles O40: the meaning of NOP is the state it is given. -/
theorem nopHasNoEffect : Obligations.NopHasNoEffect :=
  ⟨decode_encode_append .nop [], fun _ => rfl⟩

end Sys2Proof.Machine
end

section
/-! The families 60_exceptions.md and 70_reset_and_hazards.md. The loop of `run` follows a run of steps
(`runLoop_of_runsTo`) and a loop that returns came so (`runLoop_eq_done`); `boot` has one equation for all it
does (`State.boot_eq`), and successive keyboard reads have one (`keysRead_eq`). -/

namespace Sys2Proof.Machine

/-! ### Pending interrupts -/

/-- Settles O34: the two conditions of `State.serviceInterrupts` in its order. -/
theorem nmiComesBeforeIrqAndIMasksIrq : Obligations.NmiComesBeforeIrqAndIMasksIrq := by
  refine fun s => ⟨fun hnmi => if_pos hnmi, fun hnmi hirq hi => ?_, fun hnmi hmasked => ?_⟩
  · rw [State.serviceInterrupts, hnmi, hirq, hi]
    rfl
  · refine s.serviceInterrupts_of_not_due ?_
    rw [State.interruptDue, hnmi]
    rcases hmasked with h | h <;> simp [h]

/-- Settles O35: each trigger is a `State.setIrqPending` or `State.setNmiPending` to true. -/
theorem triggersSetOneLatch : Obligations.TriggersSetOneLatch :=
  fun _ => ⟨rfl, rfl, rfl, rfl, rfl, rfl⟩

/-! ### A change of I -/

/-- Where the latches are kept, what is due at the next step head depends on the I left. -/
theorem Keeps.interruptDue {s t : State} (k : Keeps s t) :
    t.interruptDue = (s.nmiPending || (s.irqPending && !t.flag .i)) := by
  rw [State.interruptDue, k.nmiPending, k.irqPending]

/-- Settles O36: none of the four touches a latch (`exec_keeps`), and each leaves the I of its own
obligation. -/
theorem aMaskChangeTakesEffectAtTheNextStepHead :
    Obligations.AMaskChangeTakesEffectAtTheNextStepHead := by
  intro s
  have hdue {i : Instr} {t : State} {b : Bool} (h : exec i s = .next t) (hb : ∀ p, i ≠ .brk p)
      (hi : t.flag .i = b) : t.interruptDue = (s.nmiPending || (s.irqPending && !b)) :=
    hi ▸ (exec_keeps i s t h hb).interruptDue
  have hset (b : Bool) : (s.setFlag .i b).flag .i = b := by rw [State.flag_setFlag, if_pos rfl]
  refine ⟨⟨_, rfl, ?_⟩, ⟨_, rfl, ?_⟩, fun i hi => ?_⟩
  · rw [hdue (i := .cli) rfl (by simp) (hset false), Bool.not_false, Bool.and_true]
  · rw [hdue (i := .sei) rfl (by simp) (hset true), Bool.not_true, Bool.and_false, Bool.or_false]
  · simp only [List.mem_cons, List.not_mem_nil, or_false] at hi
    rcases hi with rfl | rfl
    · obtain ⟨-, -, hpull⟩ := plaAndPlpPullOneByte
      obtain ⟨-, t, ht, -, -, hflags, -⟩ := hpull s
      exact ⟨t, ht, hdue ht (by simp) (hflags .i (by decide))⟩
    · obtain ⟨-, hpull⟩ := rtiPullsStatusAndPc
      obtain ⟨t, ht, -, -, hflags, -⟩ := hpull s
      exact ⟨t, ht, hdue ht (by simp) (hflags .i (by decide))⟩

/-! ### The decode fault -/

/-- Settles O42: the fetch ends at the opcode, one byte past PC (`State.fetch8_snd`). -/
theorem notImplementedOpcodeFaultsPastTheOpcode : Obligations.NotImplementedOpcodeFaultsPastTheOpcode := by
  intro s
  rw [← State.fetch8_fst]
  intro hop
  rcases s.beginStep.fetchInstr_cases with ⟨-, hf⟩ | ⟨n, i, hn, -, -, -⟩
  · rw [step_of_notImplemented hf, State.fetch8_snd]
    rfl
  · cases hn.symm.trans ((opcodeOperandBytes_eq_none_iff _).mpr hop)

/-- A faulting step is that of O42 (R97). -/
theorem step_eq_fault {s : State} {f : Fault} (h : step s = .fault f) :
    f = .opcodeNotImplemented (busValue s.beginStep s.beginStep.pc) (s.beginStep.afterFetch 1) := by
  by_cases hop : busValue s.beginStep s.beginStep.pc ∈ notImplementedOpcodes
  · exact Host.Outcome.fault.inj (h.symm.trans (notImplementedOpcodeFaultsPastTheOpcode s hop))
  · obtain ⟨t, ht⟩ := (stepEndsInNextOrNotImplementedOnly s).1 hop
    cases h.symm.trans ht

/-- The head of a step emits no event: a service only pushes (R183). -/
theorem State.beginStep_events (s : State) : s.beginStep.events = s.events := by
  obtain ⟨-, hnot, hdue⟩ := stepHeadServicesAtMostOneInterrupt s
  cases h : s.interruptDue with
  | false => rw [hnot h, State.setTaken_events, State.setPageCross_events]
  | true =>
    obtain ⟨-, -, ⟨-, -, -, hevents, -⟩, -⟩ := hdue h
    exact hevents

/-! ### Running -/

/-- Not halted over one more step: neither now, nor from the state that step leaves. -/
theorem notHaltedBefore_succ {n : Nat} {s v : State} (hstep : step s = .next v)
    (h : NotHaltedBefore (n + 1) s) : s.halted = false ∧ NotHaltedBefore n v :=
  ⟨h 0 n.succ_pos s ((runsTo_zero s s).mpr rfl),
    fun k hk w hw => h (k + 1) (Nat.succ_lt_succ hk) w ((runsTo_succ w hstep).mpr hw)⟩

/-- The loop of `run` takes one more step from a state that is not halted. -/
theorem runLoop_succ_of_next {s t : State} (hs : s.halted = false) (h : step s = .next t) (fuel n : Nat) :
    runLoop (fuel + 1) n s = runLoop fuel (n + 1) t := by
  rw [runLoop, hs, h]
  rfl

/-- It stops on a halted machine and at the end of its budget (R200). -/
theorem runLoop_stops {fuel : Nat} {s : State} (h : s.halted = true ∨ fuel = 0) (n : Nat) :
    runLoop fuel n s = .done (s.emit (.programHalted (BitVec.ofNat 64 n))) := by
  cases fuel with
  | zero => rfl
  | succ fuel =>
    rcases h with h | h
    · rw [runLoop, if_pos h]
    · cases h

/-- It ends in the fault of a step that faults (R203). -/
theorem runLoop_succ_of_fault {s : State} {f : Fault} (hs : s.halted = false) (h : step s = .fault f)
    (fuel n : Nat) : runLoop (fuel + 1) n s = .fault f := by
  rw [runLoop, hs, h]
  rfl

/-- It follows a run of steps from states that are not halted. -/
theorem runLoop_of_runsTo {k : Nat} {s u : State} (hrun : RunsTo k s u) (hnot : NotHaltedBefore k s)
    (fuel n : Nat) : runLoop (k + fuel) n s = runLoop fuel (n + k) u := by
  induction k generalizing s n with
  | zero => rw [(runsTo_zero s u).mp hrun, Nat.zero_add, Nat.add_zero]
  | succ k ih =>
    obtain ⟨v, hstep, hrest⟩ := exists_step_of_runsTo_succ hrun
    obtain ⟨hs, hv⟩ := notHaltedBefore_succ hstep hnot
    rw [Nat.add_right_comm k 1 fuel, runLoop_succ_of_next hs hstep, ih hrest hv,
      Nat.add_assoc, Nat.add_comm 1 k]

/-- A loop that returns from a machine that is not halted took a step. -/
theorem runLoop_succ_eq_done {fuel n : Nat} {s t : State} (hs : s.halted = false)
    (h : runLoop (fuel + 1) n s = .done t) :
    ∃ v, step s = .next v ∧ runLoop fuel (n + 1) v = .done t := by
  rw [runLoop, hs] at h
  cases hstep : step s with
  | next v => exact ⟨v, rfl, by simpa [hstep] using h⟩
  | fault f => simp [hstep] at h
  | refused r => simp [hstep] at h

/-- A loop that returns took its steps from states that were not halted, stopped for one of R200's two
reasons, and emitted the event. -/
theorem runLoop_eq_done {fuel n : Nat} {s t : State} (h : runLoop fuel n s = .done t) :
    ∃ k u, k ≤ fuel ∧ RunsTo k s u ∧ t = u.emit (.programHalted (BitVec.ofNat 64 (n + k))) ∧
      (u.halted = true ∨ k = fuel) ∧ ∀ j < k, ∃ v, RunsTo j s v ∧ v.halted = false := by
  by_cases hstop : s.halted = true ∨ fuel = 0
  · rw [runLoop_stops hstop] at h
    exact ⟨0, s, fuel.zero_le, (runsTo_zero s s).mpr rfl, (RunResult.done.inj h).symm,
      hstop.imp_right Eq.symm, fun j hj => absurd hj j.not_lt_zero⟩
  · obtain ⟨hnot, hfuel⟩ := not_or.mp hstop
    have hs : s.halted = false := Bool.eq_false_of_not_eq_true hnot
    obtain ⟨fuel, rfl⟩ := Nat.exists_eq_succ_of_ne_zero hfuel
    obtain ⟨v, hstep, hrest⟩ := runLoop_succ_eq_done hs h
    obtain ⟨k, u, hk, hrun, ht, hwhy, hbefore⟩ := runLoop_eq_done hrest
    refine ⟨k + 1, u, Nat.succ_le_succ hk, (runsTo_succ u hstep).mpr hrun, ?_,
      hwhy.imp_right (congrArg Nat.succ), fun j hj => ?_⟩
    · rw [ht, Nat.add_assoc, Nat.add_comm 1 k]
    · cases j with
      | zero => exact ⟨s, (runsTo_zero s s).mpr rfl, hs⟩
      | succ j =>
        obtain ⟨w, hw, hwh⟩ := hbefore j (Nat.lt_of_succ_lt_succ hj)
        exact ⟨w, (runsTo_succ w hstep).mpr hw, hwh⟩
termination_by fuel

/-- A run with a budget is its loop (R200). -/
theorem State.run_eq_runLoop (s : State) {budget : BitVec 64} (h : budget ≠ 0#64) :
    s.run budget = runLoop budget.toNat 0 s := if_neg h

/-- A run of steps from states that are not halted returns where it halts or uses up the budget (R200). -/
theorem run_of_runsTo {s u : State} {budget : BitVec 64} {n : Nat} (hb : budget ≠ 0#64)
    (hn : n ≤ budget.toNat) (hnot : NotHaltedBefore n s) (hrun : RunsTo n s u)
    (hstop : u.halted = true ∨ n = budget.toNat) :
    s.run budget = .done (u.emit (.programHalted (BitVec.ofNat 64 n))) := by
  obtain ⟨fuel, hfuel⟩ := Nat.exists_eq_add_of_le hn
  rw [s.run_eq_runLoop hb, hfuel, runLoop_of_runsTo hrun hnot, Nat.zero_add]
  exact runLoop_stops (hstop.imp_right fun h => by omega) n

/-- A step that faults within the budget ends the run (R203). -/
theorem run_of_fault {s u : State} {f : Fault} {budget : BitVec 64} {n : Nat} (hn : n < budget.toNat)
    (hnot : NotHaltedBefore (n + 1) s) (hrun : RunsTo n s u) (hfault : step u = .fault f) :
    s.run budget = .fault f := by
  have hb : budget ≠ 0#64 := by
    rintro rfl
    exact n.not_lt_zero hn
  have hbefore : NotHaltedBefore n s := fun k hk => hnot k (Nat.lt_succ_of_lt hk)
  have hu : u.halted = false := hnot n n.lt_succ_self u hrun
  obtain ⟨fuel, hfuel⟩ := Nat.exists_eq_add_of_lt hn
  rw [s.run_eq_runLoop hb, hfuel, Nat.add_assoc, runLoop_of_runsTo hrun hbefore]
  exact runLoop_succ_of_fault hu hfault _ _

/-- Settles O57: the loop follows a run of steps to where it stops or faults, and a loop that returns came so
(`runLoop_eq_done`). -/
theorem runStopsAtTheBudgetOrWhenHalted : Obligations.RunStopsAtTheBudgetOrWhenHalted := by
  refine ⟨fun _ => rfl, fun s budget hb hs => ?_, fun s u budget n hb hn hnot hrun hstop =>
    run_of_runsTo hb hn hnot hrun hstop, fun s u t budget n op hn hnot hrun hfault => ?_,
    fun s t budget h => ?_⟩
  · rw [s.run_eq_runLoop hb, runLoop_stops (.inl hs)]
  · have hevents : t.events = u.events := by
      cases step_eq_fault hfault
      exact u.beginStep_events
    exact ⟨run_of_fault hn hnot hrun hfault, hevents⟩
  · have hb : budget ≠ 0#64 := by
      rintro rfl
      cases h
    rw [s.run_eq_runLoop hb] at h
    obtain ⟨n, u, hn, hrun, ht, hwhy, hbefore⟩ := runLoop_eq_done h
    rw [Nat.zero_add] at ht
    exact ⟨n, u, hn, hrun, ht, hwhy, hbefore⟩

/-! ### Reset -/

/-- Everything `boot` does (R206). -/
theorem State.boot_eq (s : State) :
    s.boot = { s with
      a := 0#8, x := 0#8, y := 0#8, sp := Config.resetSp, p := Config.resetP,
      pc := joinBytes (s.peek Config.resetVector) (s.peek (Config.resetVector + 1#16)),
      halted := false, irqPending := false, nmiPending := false, cycles := 0#64, kbdCur := 0 } := by
  rw [boot, read16_of_ne _ (by decide) (by decide)]
  rfl

/-- Settles O54, by `State.boot_eq`. -/
theorem bootSetsTheResetValues : Obligations.BootSetsTheResetValues := by
  intro s
  rw [State.boot_eq]
  exact ⟨rfl, rfl, rfl, rfl, rfl, joinBytes_toNat _ _, rfl, rfl, rfl, rfl, rfl, rfl, rfl, rfl, rfl⟩

/-- Settles O55: an empty memory reads zero, and `boot` loads PC from it. -/
theorem powerOnStateAndItsBoot : Obligations.PowerOnStateAndItsBoot := by
  refine ⟨rfl, rfl, rfl, rfl, rfl, rfl, rfl, rfl, rfl, rfl, rfl, rfl, rfl, rfl, fun _ => rfl, ?_⟩
  rw [State.boot_eq]
  rfl

/-! ### Keys -/

/-- After a read at 0xF000 the cursor is at the byte after the one read; past the end there is none (R57). -/
theorem State.getD_curAfterRead (s : State) (k : Nat) :
    s.kbdBuf.getD (s.curAfterRead Config.ioKbd + k) 0#8 = s.kbdBuf.getD (s.kbdCur + (k + 1)) 0#8 := by
  unfold curAfterRead
  split
  · rw [Nat.add_assoc, Nat.add_comm 1 k]
  · next h =>
    have hend : s.kbdBuf.length ≤ s.kbdCur := Nat.le_of_not_lt fun hlt => h ⟨rfl, hlt⟩
    rw [List.getD_eq_default _ _ (by omega), List.getD_eq_default _ _ (by omega)]

/-- Successive reads at 0xF000 give the buffer's bytes from the cursor on, then 0x00 (R57). -/
theorem keysRead_eq (n : Nat) (s : State) :
    keysRead n s = (List.range n).map fun k => s.kbdBuf.getD (s.kbdCur + k) 0#8 := by
  induction n generalizing s with
  | zero => rfl
  | succ n ih =>
    have hfirst : (s.read8 0xF000#16).1 = s.kbdBuf.getD s.kbdCur 0#8 := s.read8_kbd_fst
    have hrest : keysRead n (s.read8 0xF000#16).2 =
        (List.range n).map fun k => s.kbdBuf.getD (s.kbdCur + (k + 1)) 0#8 := by
      rw [ih, State.read8_snd]
      exact List.map_congr_left fun k _ => s.getD_curAfterRead k
    rw [keysRead, hfirst, hrest, List.range_succ_eq_map, List.map_cons, List.map_map]
    rfl

/-- As many reads as there are bytes left give those bytes. -/
theorem keysRead_drop (s : State) {n : Nat} (hn : s.kbdCur + n = s.kbdBuf.length) :
    keysRead n s = s.kbdBuf.drop s.kbdCur := by
  rw [keysRead_eq]
  refine List.ext_getElem (by simp; omega) fun k hk _ => ?_
  rw [List.length_map, List.length_range] at hk
  have hlt : s.kbdCur + k < s.kbdBuf.length := by omega
  rw [List.getElem_map, List.getElem_range, List.getElem_drop, List.getD_eq_getElem _ _ hlt]

/-- Settles O58: successive reads by `keysRead_eq`, and all that are left by `keysRead_drop`. -/
theorem sentKeysAreReadInOrder : Obligations.SentKeysAreReadInOrder := by
  intro s keys
  have hsend (hkeys : keys ≠ []) : s.sendKeys keys = .done (s.setKbdBuf (s.kbdBuf ++ keys)) := if_neg hkeys
  refine ⟨rfl, hsend, fun n => keysRead_eq n s, fun t hcur ht => ?_, ?_⟩
  · have hkeys : keys ≠ [] := by
      rintro rfl
      cases ht
    cases (hsend hkeys).symm.trans ht
    rw [keysRead_drop _ (by simp [hcur])]
    simp [hcur]
  · have hcur : s.boot.kbdCur = 0 := rfl
    have hbuf : s.boot.kbdBuf = s.kbdBuf := by rw [State.boot_eq]
    rw [keysRead_drop _ (by rw [hcur, hbuf, Nat.zero_add]), hcur, hbuf, List.drop_zero]

/-! ### Setters -/

/-- A setter writes no field but its own; only `clearHalted` writes `halted` (R202). -/
theorem State.hostSet_frame (s : State) (h : HostSet) :
    (h ≠ .clearHalted → (s.hostSet h).halted = s.halted) ∧
    (s.hostSet h).mem = s.mem ∧ (s.hostSet h).irqPending = s.irqPending ∧
    (s.hostSet h).nmiPending = s.nmiPending ∧ (s.hostSet h).romLoaded = s.romLoaded ∧
    (s.hostSet h).events = s.events ∧ (s.hostSet h).kbdBuf = s.kbdBuf ∧
    (s.hostSet h).kbdCur = s.kbdCur ∧ (s.hostSet h).draws = s.draws ∧
    Indicators s.pageCross s.taken (s.hostSet h) := by
  cases h with
  | clearHalted => exact ⟨fun hne => absurd rfl hne, rfl, rfl, rfl, rfl, rfl, rfl, rfl, rfl, rfl, rfl⟩
  | a | x | y | sp | pc | p | cycles | flag =>
    exact ⟨fun _ => rfl, rfl, rfl, rfl, rfl, rfl, rfl, rfl, rfl, rfl, rfl⟩

/-- Settles O60: each setter is one field update, that of a flag is O13, and the rest is
`State.hostSet_frame`. -/
theorem settersAreExact : Obligations.SettersAreExact := by
  intro s v w n f b
  obtain ⟨hflag, hothers, -⟩ := setFlagLeavesTheOtherSeven s f b
  exact ⟨rfl, rfl, rfl, rfl, rfl, rfl, rfl, rfl, hflag, hothers, rfl, rfl, rfl, s.hostSet_frame⟩

end Sys2Proof.Machine
end
